-- ==== Sys2Proof/Word.lean ====
section
/-! DEFINITION. The two plain types everything is made of: the byte (00_scope.md R6) and the text of a string operand. -/

namespace Sys2Proof

/-- A byte, 0..255 (R6). -/
abbrev Byte := BitVec 8

/-- The text of a string operand or result (30_encoding.md R84, R86), as its characters. -/
abbrev Text := List Char

end Sys2Proof
end

