-- ==== Sys2Proof/Config.lean ====
section
/-! DEFINITION. The configuration record of 00_scope.md R5 (the entries it marks "parameter"), the names OPC is keyed by,
and the free values of the model. The default values stand in Machine/Table.lean. -/

namespace Sys2Proof

/-- The device's operating modes CC, CV, CW, CR (R13, R85). -/
inductive Mode where
  | cc | cv | cw | cr
deriving DecidableEq, Repr

/-- The host operations that have a descriptor: the rows of 41_command_table_dispatch.md R142, the transient
operations once for each mode (R144). `open` and `close` have none. -/
inductive OpName where
  | setRemoteControl | setLoadState
  | setMaxVoltage | getMaxVoltage | setMaxCurrent | getMaxCurrent | setMaxPower | getMaxPower
  | setMode | getMode
  | setCCCurrent | getCCCurrent | setCVVoltage | getCVVoltage | setCWPower | getCWPower
  | setCRResistance | getCRResistance
  | setTransient (m : Mode) | getTransient (m : Mode)
  | setBatteryTestVoltage | getBatteryTestVoltage
  | setLoadOnTimer | getLoadOnTimer | setLoadOnTimerState | getLoadOnTimerState
  | setTriggerSource | getTriggerSource | triggerLoad
  | saveSettings | recallSettings
  | setFunction | getFunction
  | getInputValues | getProductInformation
deriving DecidableEq, Repr

/-- `TP_LAYOUT` (R232): the payload offsets of the five transient-profile fields. -/
structure TPLayout where
  a : Nat
  ta : Nat
  b : Nat
  tb : Nat
  style : Nat
deriving DecidableEq, Repr

/-- `IV_LAYOUT` (R251): the payload offsets of the five input read-back fields. -/
structure IVLayout where
  volts : Nat
  milliamps : Nat
  watts : Nat
  status0 : Nat
  status1 : Nat
deriving DecidableEq, Repr

/-- `PI_LAYOUT` (R256): the payload offsets and lengths of the product-information fields. -/
structure PILayout where
  model : Nat
  modelLen : Nat
  fwMinor : Nat
  fwMajor : Nat
  serial : Nat
  serialLen : Nat
deriving DecidableEq, Repr

/-- `OVERFLOW` (R5, R115): what becomes of a wire integer that does not fit its field. -/
inductive Overflow where
  | fault
  | truncate
deriving DecidableEq, Repr

/-- The parameters of R5. `opc` is OPC, the map from host operation to opcode byte (R87). -/
structure Config where
  opc : List (OpName × Byte)
  recog : List Byte
  scaleR : Nat
  overflow : Overflow
  caseFold : Bool
  tp : TPLayout
  iv : IVLayout
  pi : PILayout
deriving DecidableEq, Repr

/-- FREE VALUE (R147, D35, entry 4): whether `ROUND` takes the upper neighbour of a rational that lies exactly half
way. R147 fixes `ROUND` everywhere else, so `ROUND` is any function R147 admits as this ranges over all functions. -/
opaque Config.roundTieUp : Rat → Bool

/-- FREE VALUE (R86, D15, entry 5): `CASEFOLD` of the machine that comes out of reset. -/
opaque Config.caseFoldValue : Bool

/-- FREE VALUE (R28, R146, entry 22): what OPR, which has 32 bits, holds after a SCALE used on its own whose wire integer has
more. -/
opaque Config.wideOperand : Nat → BitVec 32

/-- FREE VALUE (R9, R234, entry 23): the byte that TPDEC used on its own finds at an offset its payload does not have. -/
opaque Config.absentByte : List Byte → Nat → Byte

end Sys2Proof
end

