-- ==== Sys2Proof/Syntax.lean ====
section
/-! DEFINITION. The whole syntax: the values operations take and return (00_scope.md R10), the descriptor record
(41_command_table_dispatch.md R141), and `Instr`, one constructor for each row of spec/opcode_table.json. -/

namespace Sys2Proof

/-- The device's functions (R85). -/
inductive LoadFunction where
  | fixed | short | transient | battery
deriving DecidableEq, Repr

/-- The trigger sources (R85). -/
inductive TriggerSource where
  | immediate | external | bus
deriving DecidableEq, Repr

/-- The transient styles (R85). -/
inductive Style where
  | continuous | pulse | toggled
deriving DecidableEq, Repr

/-- Direction of a descriptor (R141). -/
inductive Dir where
  | set | query
deriving DecidableEq, Repr

/-- The enumerations a single field can carry (R141 `enum(E)`). -/
inductive EnumKind where
  | mode | function | trigger
deriving DecidableEq, Repr

/-- How the operand or result of a descriptor is typed (R141, R82). -/
inductive Kind where
  | quantity | integer | flag | enum (e : EnumKind) | none | composite
deriving DecidableEq, Repr

/-- The field list of a descriptor (R141): one field at payload offset 0, or a composite layout. -/
inductive Layout where
  | single | tp | iv | pi
deriving DecidableEq, Repr

/-- A command descriptor (R141). -/
structure Desc where
  opcode : Byte
  width : Nat
  scale : Nat
  dir : Dir
  kind : Kind
  layout : Layout
deriving DecidableEq, Repr

/-- The cause tag of `MalformedFrame` (R120, D9). -/
inductive Cause where
  | length | header | address | opcode | checksum
deriving DecidableEq, Repr

/-- The errors of R10 and 60_exceptions.md R290. An error is a result the host receives, not a stop. -/
inductive Err where
  | invalidParameter
  | unknownMode
  | unknownFunction
  | outOfRange
  | invalidPayload
  | malformedFrame (c : Cause)
  | transportTimeout
  | transportOpenError
  | unmappedCode (b : Byte)
deriving DecidableEq, Repr

/-- The device-reported outcomes (R10, R124). -/
inductive DevOutcome where
  | success
  | wrongChecksum
  | invalidParameterValue
  | commandNotExecutable
  | invalidCommand
  | unknownStatus (b : Byte)
deriving DecidableEq, Repr

/-- The typed value a get operation returns (R84, R153, R237, R252, R257). -/
inductive Value where
  | number (q : Rat)
  | flag (b : Bool)
  | text (t : Text)
  | transient (a ta b tb : Rat) (style : Text)
  | inputValues (volts milliamps watts : Rat) (status0 status1 : Byte)
  | productInformation (model : List Byte) (fwMajor fwMinor : Byte) (firmware : Text) (serial : List Byte)
deriving DecidableEq, Repr

/-- The result of a host operation (R10). -/
inductive Result where
  | outcome (o : DevOutcome)
  | value (v : Value)
  | done
  | error (e : Err)
deriving DecidableEq, Repr

/-- What `DECODE` returns on success (R120). -/
structure ParsedFrame where
  echo : Byte
  status : Byte
  payload : List Byte
deriving DecidableEq, Repr

/-- What a primitive used on its own returns (entry 9): the model's own type, one constructor for each type a rule of
the primitives gives a return value of. -/
inductive Ret where
  | nothing
  | byte (b : Byte)
  | bool (b : Bool)
  | bytes (l : List Byte)
  | nat (n : Nat)
  | rat (q : Rat)
  | text (t : Text)
  | parsed (p : ParsedFrame)
  | outcome (o : DevOutcome)
  | desc (d : Desc)
  | error (e : Err)
deriving DecidableEq, Repr

/-- The widths `ENCINT` takes, and no other (`INT_WIDTHS`, R5, R114): 1, 2 and 4 bytes. -/
inductive IntWidth where
  | one | two | four
deriving DecidableEq, Repr

/-- Why a byte sequence encodes no operation (R80, R90). -/
inductive DecodeError where
  /-- Not 26 bytes (R91). -/
  | length
  /-- Byte 0 is not 0xAA (R80). -/
  | header
  /-- Byte 2 is no opcode of OPC and not 0x12 (R88). -/
  | noOperation (opcode : Byte)
  /-- A flag or enumeration byte with no member (R82, R85, R90). -/
  | noMember (code : Byte)
deriving DecidableEq, Repr

/-- One constructor for each row of spec/opcode_table.json. Quantities are exact rationals in the unit of R142, strings
are texts. The transient rows carry the host's own mode string (entry 7): `setTransientCc` is the row of
`setTransient` whose `mode_argument` is "cc", and so on. A primitive whose rule names the operands it takes has them by type
(entry 18): exactly 25 or 26 bytes, at least one byte, a width of `INT_WIDTHS`, a positive scale. -/
inductive Instr where
  | setRemoteControl (remote : Bool)
  | setLoadState (on : Bool)
  | setMaxVoltage (x : Rat)
  | getMaxVoltage
  | setMaxCurrent (x : Rat)
  | getMaxCurrent
  | setMaxPower (x : Rat)
  | getMaxPower
  | setMode (t : Text)
  | getMode
  | setCCCurrent (x : Rat)
  | getCCCurrent
  | setCVVoltage (x : Rat)
  | getCVVoltage
  | setCWPower (x : Rat)
  | getCWPower
  | setCRResistance (x : Rat)
  | getCRResistance
  | setTransientCc (mode : Text) (a ta b tb : Rat) (style : Text)
  | getTransientCc (mode : Text)
  | setTransientCv (mode : Text) (a ta b tb : Rat) (style : Text)
  | getTransientCv (mode : Text)
  | setTransientCw (mode : Text) (a ta b tb : Rat) (style : Text)
  | getTransientCw (mode : Text)
  | setTransientCr (mode : Text) (a ta b tb : Rat) (style : Text)
  | getTransientCr (mode : Text)
  | setBatteryTestVoltage (x : Rat)
  | getBatteryTestVoltage
  | setLoadOnTimer (x : Rat)
  | getLoadOnTimer
  | setLoadOnTimerState (enabled : Bool)
  | getLoadOnTimerState
  | setTriggerSource (t : Text)
  | getTriggerSource
  | triggerLoad
  | saveSettings (register : Int)
  | recallSettings (register : Int)
  | setFunction (t : Text)
  | getFunction
  | getInputValues
  | getProductInformation
  /-- The row STATUS (reply only): a status frame from the device at address `device`, carrying `status`. -/
  | statusReply (device status : Byte)
  /-- `open(port, baudRate, addressByte = 0)`. -/
  | openSession (port : Text) (baudRate : Nat) (addressByte : Byte := 0x00)
  /-- `close()`. -/
  | closeSession
  | csum8 (b : Vector Byte 25)
  | csumOk (f : Vector Byte 26)
  | hdrDet (f : {l : List Byte // l ≠ []})
  | encInt (v : Int) (n : IntWidth)
  | decInt (b : List Byte)
  | encodeFrame (opc addr : Byte) (p : List Byte)
  | decodeFrame (raw : List Byte)
  | statusMap (s : Byte)
  | lookup (op : OpName)
  | scale (x : Rat) (s n : Nat)
  | unscale (w : Nat) (s : PNat)
  | build (d : Desc) (data : List Byte)
  | tpEnc
  | tpDec (payload : List Byte)
  | fwText (hi lo : Byte)
  | transact (frame : Vector Byte 26)
deriving DecidableEq, Repr

end Sys2Proof
end

