-- ==== Sys2Proof/Machine/Codec.lean ====
section
/-! DEFINITION. The sub-blocks CSUM8, HDRDET, INTC and STM as pure functions (40_codec_primitives.md R111 to R117, R124),
and the fixed constants of 00_scope.md R5. -/

namespace Sys2Proof.Machine

/-- `FRAME_LEN` (R5). -/
def frameLen : Nat := 26
/-- `PAYLOAD_OFF` (R5). -/
def payloadOff : Nat := 3
/-- `PAYLOAD_CAP` (R5). -/
def payloadCap : Nat := 22
/-- `CSUM_OFF` (R5). -/
def csumOff : Nat := 25
/-- `HEADER` (R5). -/
def header : Byte := 0xAA
/-- `ADDR_FORBIDDEN` (R5). -/
def addrForbidden : Byte := 0xFF
/-- `STATUS_MARK` (R5). -/
def statusMark : Byte := 0x12
/-- `REG_MIN` (R5). -/
def regMin : Int := 1
/-- `REG_MAX` (R5). -/
def regMax : Int := 25
/-- `SCALE_I` (R5): milliampere to 0.1 mA. -/
def scaleI : Nat := 10
/-- `SCALE_V` (R5): volt to millivolt. -/
def scaleV : Nat := 1000
/-- `SCALE_P` (R5): watt to milliwatt. -/
def scaleP : Nat := 1000
/-- `SCALE_T` (R5): second to millisecond. -/
def scaleT : Nat := 1000
/-- `READ_TIMEOUT` in seconds (R5): timing only, read by no rule (R350). -/
def readTimeoutSeconds : Nat := 5
/-- `SETTLE` in milliseconds (R5, about): timing only, read by no rule (R272, R350). -/
def settleMilliseconds : Nat := 200

/-- The bytes of a width (`INT_WIDTHS`, R5, R114). -/
def widthBytes : IntWidth → Nat
  | .one => 1 | .two => 2 | .four => 4

/-- The `n` low bytes of `v`, least significant first: byte `k` is `floor(v / 256^k) mod 256` (R114, R51). -/
def leBytes : Nat → Nat → List Byte
  | 0, _ => []
  | n + 1, v => BitVec.ofNat 8 v :: leBytes n (v / 256)

/-- `ENCINT(v, n)` (R114); `overflow` says what becomes of a value that does not fit (R115). -/
def encInt (overflow : Overflow) (v : Int) (n : Nat) : Except Err (List Byte) :=
  if v < 0 then .error .invalidParameter
  else if (256 ^ n : Nat) ≤ v then
    match overflow with
    | .fault => .error .invalidParameter
    | .truncate => .ok (leBytes n v.toNat)
  else .ok (leBytes n v.toNat)

/-- `DECINT(b)` (R116), for any length. -/
def decInt : List Byte → Nat
  | [] => 0
  | b :: bs => b.toNat + 256 * decInt bs

/-- `CSUM8(b)` (R111): the sum of the unsigned byte values modulo 256. -/
def csum8 (b : List Byte) : Byte := BitVec.ofNat 8 (b.map BitVec.toNat).sum

/-- `CSUMOK(f)` (R112). -/
def csumOk (f : List Byte) : Bool := csum8 (f.take csumOff) == f.getD csumOff 0

/-- `HDRDET(f)` (R113): frame byte 0 and nothing else. -/
def hdrDet (f : List Byte) : Bool := f.head? == some header

/-- `STATUSMAP(s)` (R124): on the whole byte, every byte. -/
def statusMap (s : Byte) : DevOutcome :=
  if s = 0x80 then .success
  else if s = 0x90 then .wrongChecksum
  else if s = 0xA0 then .invalidParameterValue
  else if s = 0xB0 then .commandNotExecutable
  else if s = 0xC0 then .invalidCommand
  else .unknownStatus s

/-- `MemRead(buf, off, n)` (R9). -/
def memRead (buf : List Byte) (off n : Nat) : Nat := decInt ((buf.drop off).take n)

/-- `MemWrite(buf, off, n, v)` (R9). -/
def memWrite (buf : List Byte) (off n v : Nat) : List Byte :=
  buf.take off ++ leBytes n v ++ buf.drop (off + n)

end Sys2Proof.Machine
end

