-- ==== Sys2Proof/Machine/Flags.lean ====
section
/-! DEFINITION. The SFC has no condition codes and no sticky error bits (10_state.md R30, 42_scalar_operations.md R170). What
stands in their place is computed here: the decoder's five check results, which are combinational (R31), the order
they are reported in (R120, 60_exceptions.md R301), and the classes and codes of the errors (R290, R291). -/

namespace Sys2Proof.Machine

/-- The five check results of `DECODE` (R31, R120): true is a check that holds. -/
structure Checks where
  length : Bool
  header : Bool
  address : Bool
  opcode : Bool
  checksum : Bool
deriving DecidableEq, Repr

/-- The five checks on a received byte sequence (R120). -/
def frameChecks (recog : List Byte) (raw : List Byte) : Checks where
  length := raw.length == frameLen
  header := hdrDet raw
  address := raw.getD 1 0 != addrForbidden
  opcode := recog.contains (raw.getD 2 0)
  checksum := csumOk raw

/-- The cause reported: the first check in the order of R120 that fails. -/
def firstFailure (c : Checks) : Option Cause :=
  if !c.length then some .length
  else if !c.header then some .header
  else if !c.address then some .address
  else if !c.opcode then some .opcode
  else if !c.checksum then some .checksum
  else none

/-- The classes of R290 and R291. -/
inductive ErrClass where
  | localCheck | protocol | transport
deriving DecidableEq, Repr

/-- The class of an error (R290). -/
def errClass : Err → ErrClass
  | .invalidParameter | .unknownMode | .unknownFunction | .outOfRange | .invalidPayload => .localCheck
  | .malformedFrame _ | .unmappedCode _ => .protocol
  | .transportTimeout | .transportOpenError => .transport

/-- The cause's second number in R290 (E6.1 to E6.5). -/
def causeNumber : Cause → Nat
  | .length => 1 | .header => 2 | .address => 3 | .opcode => 4 | .checksum => 5

/-- The code E<n> or E<n>.<m> of R290, as the pair of n and m (m is 0 where there is none). Nothing depends on it. -/
def errCode : Err → Nat × Nat
  | .invalidParameter => (1, 0)
  | .unknownMode => (2, 0)
  | .unknownFunction => (3, 0)
  | .outOfRange => (4, 0)
  | .invalidPayload => (5, 0)
  | .malformedFrame c => (6, causeNumber c)
  | .transportTimeout => (7, 0)
  | .transportOpenError => (8, 0)
  | .unmappedCode _ => (9, 0)

end Sys2Proof.Machine
end

