-- ==== Sys2Proof/Machine/Frame.lean ====
section
/-! DEFINITION. The sub-blocks FENC and FDEC: the 26-byte frame encoder and decoder (40_codec_primitives.md R118 to R122). -/

namespace Sys2Proof.Machine

/-- The 26 bytes of a frame (R118, 20_memory.md R57), for a payload of at most 22 bytes. -/
def frameBytes (opc addr : Byte) (p : List Byte) : List Byte :=
  let body := [header, addr, opc] ++ p ++ List.replicate (payloadCap - p.length) 0
  body ++ [csum8 body]

/-- What `ENCODE` does (R118, R119). -/
inductive EncodeResult where
  /-- The frame. -/
  | frame (f : List Byte)
  /-- The error it raises. -/
  | error (e : Err)
  /-- Called outside its preconditions: no result and no error name (R119). -/
  | outside
deriving DecidableEq, Repr

/-- `ENCODE(opc, addr, p)` (R118) with its preconditions `addr != 0xFF` and `opc ∈ RECOG` (R119). -/
def encodeFrame (recog : List Byte) (opc addr : Byte) (p : List Byte) : EncodeResult :=
  if addr = addrForbidden ∨ recog.contains opc = false then .outside
  else if payloadCap < p.length then .error .invalidPayload
  else .frame (frameBytes opc addr p)

/-- `DECODE(raw)` (R120): the first failing check decides the error; the payload is the whole 22-byte slice (D33), and
`status` is its first byte (R121). -/
def decodeFrame (recog : List Byte) (raw : List Byte) : Except Err ParsedFrame :=
  match firstFailure (frameChecks recog raw) with
  | some c => .error (.malformedFrame c)
  | none => .ok { echo := raw.getD 2 0, status := raw.getD 3 0, payload := (raw.drop payloadOff).take payloadCap }

end Sys2Proof.Machine
end

