-- ==== Sys2Proof/Machine/Operands.lean ====
section
/-! DEFINITION. How a host operand becomes wire data and back (30_encoding.md R82): quantities through `SCALE`, `ROUND` and
`UNSCALE` (41_command_table_dispatch.md R146 to R149), flags, and the four enumerations (R85, R86). -/

namespace Sys2Proof.Machine

/-! ### Quantities -/

/-- `ROUND(q)` (R147): the nearest integer; of two equally near ones, the one the free value names (entry 4). -/
def roundRat (q : Rat) : Int :=
  let below := q.num / (q.den : Int)
  let rest := q.num % (q.den : Int)
  if 2 * rest < q.den then below
  else if (q.den : Int) < 2 * rest then below + 1
  else if Config.roundTieUp q then below + 1 else below

/-- `SCALE(x, s, n)` (R146), less its write of OPR: the sign check is on the operand (R148), the width check on the
rounded product (R115). With OVERFLOW = truncate the low `n` bytes are kept (R115, entry 6). -/
def scaleValue (overflow : Overflow) (x : Rat) (s n : Nat) : Except Err Nat :=
  if x < 0 then .error .invalidParameter
  else
    let w := roundRat (x * (s : Rat))
    if (256 ^ n : Nat) ≤ w then
      match overflow with
      | .fault => .error .invalidParameter
      | .truncate => .ok (w.toNat % 256 ^ n)
    else .ok w.toNat

/-- The write of OPR by `SCALE` (R146, R28): the wire integer; a free value where it has more than OPR's 32 bits, which no
width of a host operation's field lets it have (entry 22). -/
def oprOf (w : Nat) : BitVec 32 := if w < 2 ^ 32 then BitVec.ofNat 32 w else Config.wideOperand w

/-- `UNSCALE(w, s)` (R149): the exact rational `w / s`. -/
def unscale (w s : Nat) : Rat := mkRat w s

/-! ### Flags -/

/-- The flag coding (R82, R85): false 0, true 1. -/
def flagByte (b : Bool) : Byte := if b then 0x01 else 0x00

/-- A flag from the wire (R82): 0 and 1 only. -/
def flagOfByte (b : Byte) : Option Bool :=
  if b = 0x00 then some false else if b = 0x01 then some true else none

/-! ### Enumerations -/

def modes : List Mode := [.cc, .cv, .cw, .cr]

def modeText : Mode → Text
  | .cc => ['c', 'c'] | .cv => ['c', 'v'] | .cw => ['c', 'w'] | .cr => ['c', 'r']

def modeCode : Mode → Byte
  | .cc => 0 | .cv => 1 | .cw => 2 | .cr => 3

def functions : List LoadFunction := [.fixed, .short, .transient, .battery]

def functionText : LoadFunction → Text
  | .fixed => ['f', 'i', 'x', 'e', 'd']
  | .short => ['s', 'h', 'o', 'r', 't']
  | .transient => ['t', 'r', 'a', 'n', 's', 'i', 'e', 'n', 't']
  | .battery => ['b', 'a', 't', 't', 'e', 'r', 'y']

/-- R85: the codes are not contiguous; no function has code 3. -/
def functionCode : LoadFunction → Byte
  | .fixed => 0 | .short => 1 | .transient => 2 | .battery => 4

def triggers : List TriggerSource := [.immediate, .external, .bus]

def triggerText : TriggerSource → Text
  | .immediate => ['i', 'm', 'm', 'e', 'd', 'i', 'a', 't', 'e']
  | .external => ['e', 'x', 't', 'e', 'r', 'n', 'a', 'l']
  | .bus => ['b', 'u', 's']

def triggerCode : TriggerSource → Byte
  | .immediate => 0 | .external => 1 | .bus => 2

def styles : List Style := [.continuous, .pulse, .toggled]

def styleText : Style → Text
  | .continuous => ['c', 'o', 'n', 't', 'i', 'n', 'u', 'o', 'u', 's']
  | .pulse => ['p', 'u', 'l', 's', 'e']
  | .toggled => ['t', 'o', 'g', 'g', 'l', 'e', 'd']

def styleCode : Style → Byte
  | .continuous => 0 | .pulse => 1 | .toggled => 2

/-- A text with its ASCII letters in lower case (R86 (b), (c), entry 5). -/
def lowerText (t : Text) : Text := t.map Char.toLower

/-- R86: an exact canonical spelling always parses; one that differs in letter case only parses if CASEFOLD. -/
def parseText {α : Type} (caseFold : Bool) (text : α → Text) (members : List α) (t : Text) : Option α :=
  match members.find? (fun m => text m == t) with
  | some m => some m
  | none => if caseFold then members.find? (fun m => lowerText (text m) == lowerText t) else none

/-- The member with a code (R85), if there is one. -/
def memberOfCode {α : Type} (code : α → Byte) (members : List α) (b : Byte) : Option α :=
  members.find? (fun m => code m == b)

def parseMode (caseFold : Bool) (t : Text) : Option Mode := parseText caseFold modeText modes t
def parseFunction (caseFold : Bool) (t : Text) : Option LoadFunction := parseText caseFold functionText functions t
def parseTrigger (caseFold : Bool) (t : Text) : Option TriggerSource := parseText caseFold triggerText triggers t
def parseStyle (caseFold : Bool) (t : Text) : Option Style := parseText caseFold styleText styles t

/-- The canonical string of the member of an enumeration with a code (R82, R85). -/
def enumTextOfCode (e : EnumKind) (b : Byte) : Option Text :=
  match e with
  | .mode => (memberOfCode modeCode modes b).map modeText
  | .function => (memberOfCode functionCode functions b).map functionText
  | .trigger => (memberOfCode triggerCode triggers b).map triggerText

/-- The canonical string of a style code (R237 step 6). -/
def styleTextOfCode (b : Byte) : Option Text := (memberOfCode styleCode styles b).map styleText

/-! ### Firmware text -/

/-- One lower-case hexadecimal digit (R258). -/
def hexDigit (n : Nat) : Char :=
  if n < 10 then Char.ofNat (48 + n) else Char.ofNat (87 + n)

/-- The lower-case hexadecimal numeral of a byte, without leading zeros (R258). -/
def hexText (b : Byte) : Text :=
  if b.toNat < 16 then [hexDigit b.toNat] else [hexDigit (b.toNat / 16), hexDigit (b.toNat % 16)]

/-- `FWTEXT(hi, lo)` (R258). -/
def fwText (hi lo : Byte) : Text := hexText hi ++ ['.'] ++ hexText lo

end Sys2Proof.Machine
end

