-- ==== Sys2Proof/Machine/Table.lean ====
section
/-! DEFINITION. The sub-block CDT: the default parameters of 00_scope.md R5, the opcode of an operation under a
configuration, and the command descriptor table with its lookup (41_command_table_dispatch.md R141 to R144). -/

namespace Sys2Proof.Machine

/-- The default OPC (30_encoding.md R88), in the table's order. Every value but that of setCCCurrent is general
knowledge by the spec's own mark (entry 3). -/
def defaultOpc : List (OpName × Byte) :=
  [(.setRemoteControl, 0x20), (.setLoadState, 0x21),
   (.setMaxVoltage, 0x22), (.getMaxVoltage, 0x23),
   (.setMaxCurrent, 0x24), (.getMaxCurrent, 0x25),
   (.setMaxPower, 0x26), (.getMaxPower, 0x27),
   (.setMode, 0x28), (.getMode, 0x29),
   (.setCCCurrent, 0x2A), (.getCCCurrent, 0x2B),
   (.setCVVoltage, 0x2C), (.getCVVoltage, 0x2D),
   (.setCWPower, 0x2E), (.getCWPower, 0x2F),
   (.setCRResistance, 0x30), (.getCRResistance, 0x31)] ++
  [(.setTransient .cc, 0x32), (.getTransient .cc, 0x33),
   (.setTransient .cv, 0x34), (.getTransient .cv, 0x35),
   (.setTransient .cw, 0x36), (.getTransient .cw, 0x37),
   (.setTransient .cr, 0x38), (.getTransient .cr, 0x39),
   (.setBatteryTestVoltage, 0x4E), (.getBatteryTestVoltage, 0x4F),
   (.setLoadOnTimer, 0x50), (.getLoadOnTimer, 0x51),
   (.setLoadOnTimerState, 0x52), (.getLoadOnTimerState, 0x53)] ++
  [(.setTriggerSource, 0x58), (.getTriggerSource, 0x59), (.triggerLoad, 0x5A),
   (.saveSettings, 0x5B), (.recallSettings, 0x5C),
   (.setFunction, 0x5D), (.getFunction, 0x5E),
   (.getInputValues, 0x5F), (.getProductInformation, 0x6A)]

/-- The default RECOG (R89): 0x12 and the closed interval 0x20..0x6C, 78 values. -/
def defaultRecog : List Byte :=
  statusMark :: (List.range 77).map (fun k => BitVec.ofNat 8 (0x20 + k))

/-- The default TP_LAYOUT (R232). -/
def defaultTP : TPLayout := { a := 0, ta := 4, b := 6, tb := 10, style := 12 }

/-- The default IV_LAYOUT (R251). -/
def defaultIV : IVLayout := { volts := 0, milliamps := 4, watts := 8, status0 := 12, status1 := 13 }

/-- The default PI_LAYOUT (R256). -/
def defaultPI : PILayout := { model := 0, modelLen := 5, fwMinor := 5, fwMajor := 6, serial := 7, serialLen := 10 }

/-- The default parameters (R5); CASEFOLD, which has no default, is the free value (entry 5). -/
def defaultConfig : Config where
  opc := defaultOpc
  recog := defaultRecog
  scaleR := 1000
  overflow := .fault
  caseFold := Config.caseFoldValue
  tp := defaultTP
  iv := defaultIV
  pi := defaultPI

/-- The opcode of an operation under a configuration (R87). OPC names every operation (`Config.Ok`); the value for an
operation it does not name is 0, which no rule uses. -/
def opcOf (c : Config) (op : OpName) : Byte := (c.opc.lookup op).getD 0

/-- The operation a request opcode selects (R80, R87). -/
def opOfOpcode (c : Config) (b : Byte) : Option OpName := (c.opc.find? (fun p => p.2 == b)).map Prod.fst

/-- The set-point scale of a mode (R144). -/
def setPointScale (c : Config) : Mode → Nat
  | .cc => scaleI
  | .cv => scaleV
  | .cw => scaleP
  | .cr => c.scaleR

/-- A row of R142 with one field at payload offset 0. -/
def singleRow (c : Config) (op : OpName) (dir : Dir) (width scale : Nat) (kind : Kind) : Desc :=
  { opcode := opcOf c op, width := width, scale := scale, dir := dir, kind := kind, layout := .single }

/-- A row of R142 with a composite field list. -/
def compositeRow (c : Config) (op : OpName) (dir : Dir) (width scale : Nat) (layout : Layout) : Desc :=
  { opcode := opcOf c op, width := width, scale := scale, dir := dir, kind := .composite, layout := layout }

/-- `LOOKUP(op)` and `LOOKUP(op, m)` (R143, R144): the table of R142, total on the operation names. The row of
getInputValues gives three scales; the record holds the first (entry 15). -/
def lookup (c : Config) (op : OpName) : Desc :=
  match op with
  | .setRemoteControl => singleRow c op .set 1 1 .flag
  | .setLoadState => singleRow c op .set 1 1 .flag
  | .setMaxVoltage => singleRow c op .set 4 scaleV .quantity
  | .getMaxVoltage => singleRow c op .query 4 scaleV .quantity
  | .setMaxCurrent => singleRow c op .set 4 scaleI .quantity
  | .getMaxCurrent => singleRow c op .query 4 scaleI .quantity
  | .setMaxPower => singleRow c op .set 4 scaleP .quantity
  | .getMaxPower => singleRow c op .query 4 scaleP .quantity
  | .setMode => singleRow c op .set 1 1 (.enum .mode)
  | .getMode => singleRow c op .query 1 1 (.enum .mode)
  | .setCCCurrent => singleRow c op .set 4 scaleI .quantity
  | .getCCCurrent => singleRow c op .query 4 scaleI .quantity
  | .setCVVoltage => singleRow c op .set 4 scaleV .quantity
  | .getCVVoltage => singleRow c op .query 4 scaleV .quantity
  | .setCWPower => singleRow c op .set 4 scaleP .quantity
  | .getCWPower => singleRow c op .query 4 scaleP .quantity
  | .setCRResistance => singleRow c op .set 4 c.scaleR .quantity
  | .getCRResistance => singleRow c op .query 4 c.scaleR .quantity
  | .setTransient m => compositeRow c op .set 4 (setPointScale c m) .tp
  | .getTransient m => compositeRow c op .query 4 (setPointScale c m) .tp
  | .setBatteryTestVoltage => singleRow c op .set 4 scaleV .quantity
  | .getBatteryTestVoltage => singleRow c op .query 4 scaleV .quantity
  | .setLoadOnTimer => singleRow c op .set 2 1 .integer
  | .getLoadOnTimer => singleRow c op .query 2 1 .integer
  | .setLoadOnTimerState => singleRow c op .set 1 1 .flag
  | .getLoadOnTimerState => singleRow c op .query 1 1 .flag
  | .setTriggerSource => singleRow c op .set 1 1 (.enum .trigger)
  | .getTriggerSource => singleRow c op .query 1 1 (.enum .trigger)
  | .triggerLoad => singleRow c op .set 0 1 .none
  | .saveSettings => singleRow c op .set 1 1 .integer
  | .recallSettings => singleRow c op .set 1 1 .integer
  | .setFunction => singleRow c op .set 1 1 (.enum .function)
  | .getFunction => singleRow c op .query 1 1 (.enum .function)
  | .getInputValues => compositeRow c op .query 4 scaleV .iv
  | .getProductInformation => compositeRow c op .query 0 1 .pi

/-! ### The composite layouts -/

/-- The length of a transient profile's data under a layout: where its last field ends (13 by default, R232). -/
def tpDataLen (l : TPLayout) : Nat :=
  max (max (l.a + 4) (l.ta + 2)) (max (max (l.b + 4) (l.tb + 2)) (l.style + 1))

/-- Five wire integers laid out as a transient profile (R233), on zeros. -/
def tpPack (l : TPLayout) (a ta b tb style : Nat) : List Byte :=
  let d0 := List.replicate (tpDataLen l) 0
  let d1 := memWrite d0 l.a 4 a
  let d2 := memWrite d1 l.ta 2 ta
  let d3 := memWrite d2 l.b 4 b
  let d4 := memWrite d3 l.tb 2 tb
  memWrite d4 l.style 1 style

end Sys2Proof.Machine
end

