-- ==== Sys2Proof/WellFormed.lean ====
section
/-! DEFINITION. What the spec asks of an instruction's operands before its rule applies, when an instruction has a frame that
carries it exactly, and what it asks of a configuration. -/

namespace Sys2Proof

open Sys2Proof.Machine

/-- A mode string that may stand in the table row of mode `m` (entry 7): it names `m` when letter case is ignored, or no
mode at all. -/
def Mode.rowAdmits (m : Mode) (t : Text) : Bool :=
  match parseMode true t with
  | some m' => m' == m
  | none => true

/-- The widths a descriptor may have (R141 `width`, `WIDTHS`). -/
def descWidth (n : Nat) : Bool := n == 0 || n == 1 || n == 2 || n == 4

/-- An instruction whose operands are of the kinds its rule takes: an address a frame may carry (R22, R119), opcodes of
RECOG (R119), a descriptor's width and positive scale (R141), a payload that reaches every field of TP_LAYOUT (R234), a mode
string of its row (entry 7). What the types of the operands already say is not asked again. -/
def Instr.wellFormed (c : Config) : Instr → Bool
  | .setTransientCc t _ _ _ _ _ => Mode.rowAdmits .cc t
  | .getTransientCc t => Mode.rowAdmits .cc t
  | .setTransientCv t _ _ _ _ _ => Mode.rowAdmits .cv t
  | .getTransientCv t => Mode.rowAdmits .cv t
  | .setTransientCw t _ _ _ _ _ => Mode.rowAdmits .cw t
  | .getTransientCw t => Mode.rowAdmits .cw t
  | .setTransientCr t _ _ _ _ _ => Mode.rowAdmits .cr t
  | .getTransientCr t => Mode.rowAdmits .cr t
  | .openSession _ _ a => a != addrForbidden
  | .encodeFrame opc addr _ => addr != addrForbidden && c.recog.contains opc
  | .build d _ => c.recog.contains d.opcode && descWidth d.width && 0 < d.scale
  | .tpDec p => tpDataLen c.tp ≤ p.length
  | .setRemoteControl _ | .setLoadState _ | .setMaxVoltage _ | .getMaxVoltage | .setMaxCurrent _ | .getMaxCurrent
  | .setMaxPower _ | .getMaxPower | .setMode _ | .getMode | .setCCCurrent _ | .getCCCurrent | .setCVVoltage _
  | .getCVVoltage | .setCWPower _ | .getCWPower | .setCRResistance _ | .getCRResistance | .setBatteryTestVoltage _
  | .getBatteryTestVoltage | .setLoadOnTimer _ | .getLoadOnTimer | .setLoadOnTimerState _ | .getLoadOnTimerState
  | .setTriggerSource _ | .getTriggerSource | .triggerLoad | .saveSettings _ | .recallSettings _ | .setFunction _
  | .getFunction | .getInputValues | .getProductInformation | .statusReply _ _ | .closeSession | .csum8 _ | .csumOk _
  | .hdrDet _ | .encInt _ _ | .decInt _ | .decodeFrame _ | .statusMap _ | .lookup _ | .scale _ _ _ | .unscale _ _
  | .tpEnc | .fwText _ _ | .transact _ => true

/-- A quantity that a field of `n` bytes carries exactly: a non-negative whole multiple of the wire unit that fits
(R82, R146). -/
def exactQuantity (x : Rat) (s n : Nat) : Bool :=
  let w := x * (s : Rat)
  w.den == 1 && decide (0 ≤ w.num) && decide (w.num < (256 ^ n : Nat))

/-- The operands of a transient set that its frame carries exactly. -/
def exactTransient (c : Config) (m : Mode) (t : Text) (a ta b tb : Rat) (style : Text) : Bool :=
  t == modeText m && exactQuantity a (setPointScale c m) 4 && exactQuantity ta scaleT 2 &&
    exactQuantity b (setPointScale c m) 4 && exactQuantity tb scaleT 2 && (styles.map styleText).contains style

/-- An instruction that a frame of 30_encoding.md R80, R81 carries exactly: every value the encoding admits, in its
canonical spelling. `open`, `close` and the primitives have no encoding (R93). -/
def Instr.framed (c : Config) : Instr → Bool
  | .setMaxVoltage x => exactQuantity x scaleV 4
  | .setMaxCurrent x => exactQuantity x scaleI 4
  | .setMaxPower x => exactQuantity x scaleP 4
  | .setCCCurrent x => exactQuantity x scaleI 4
  | .setCVVoltage x => exactQuantity x scaleV 4
  | .setCWPower x => exactQuantity x scaleP 4
  | .setCRResistance x => exactQuantity x c.scaleR 4
  | .setBatteryTestVoltage x => exactQuantity x scaleV 4
  | .setLoadOnTimer x => exactQuantity x 1 2
  | .setMode t => (modes.map modeText).contains t
  | .setTriggerSource t => (triggers.map triggerText).contains t
  | .setFunction t => (functions.map functionText).contains t
  | .saveSettings r => decide (regMin ≤ r) && decide (r ≤ regMax)
  | .recallSettings r => decide (regMin ≤ r) && decide (r ≤ regMax)
  | .setTransientCc t a ta b tb st => exactTransient c .cc t a ta b tb st
  | .setTransientCv t a ta b tb st => exactTransient c .cv t a ta b tb st
  | .setTransientCw t a ta b tb st => exactTransient c .cw t a ta b tb st
  | .setTransientCr t a ta b tb st => exactTransient c .cr t a ta b tb st
  | .getTransientCc t => t == modeText .cc
  | .getTransientCv t => t == modeText .cv
  | .getTransientCw t => t == modeText .cw
  | .getTransientCr t => t == modeText .cr
  | .setRemoteControl _ | .setLoadState _ | .getMaxVoltage | .getMaxCurrent | .getMaxPower | .getMode | .getCCCurrent
  | .getCVVoltage | .getCWPower | .getCRResistance | .getBatteryTestVoltage | .getLoadOnTimer
  | .setLoadOnTimerState _ | .getLoadOnTimerState | .getTriggerSource | .triggerLoad | .getFunction | .getInputValues
  | .getProductInformation | .statusReply _ _ => true
  | .openSession _ _ _ | .closeSession | .csum8 _ | .csumOk _ | .hdrDet _ | .encInt _ _ | .decInt _
  | .encodeFrame _ _ _ | .decodeFrame _ | .statusMap _ | .lookup _ | .scale _ _ _ | .unscale _ _ | .build _ _ | .tpEnc
  | .tpDec _ | .fwText _ _ | .transact _ => false

/-- Two fields of a payload that do not overlap: the field at `i` of `m` bytes and the field at `j` of `n` bytes. -/
def fieldsApart (i m j n : Nat) : Prop := i + m ≤ j ∨ j + n ≤ i

/-- The constraints the spec puts on the parameters: OPC names every operation once, injectively, with values in
0x20..0x6C and 0x2A for setCCCurrent (R87); RECOG holds 0x12 and every value of OPC (R89); scales are positive (R141);
fields lie inside the payload (R54), and the fields of a profile do not overlap (R233, R234). -/
structure Config.Ok (c : Config) : Prop where
  opcTotal : ∀ op : OpName, op ∈ c.opc.map Prod.fst
  opcKeys : (c.opc.map Prod.fst).Nodup
  opcInjective : (c.opc.map Prod.snd).Nodup
  opcRange : ∀ p ∈ c.opc, 0x20 ≤ p.2.toNat ∧ p.2.toNat ≤ 0x6C
  opcCCCurrent : opcOf c .setCCCurrent = 0x2A
  recogMark : statusMark ∈ c.recog
  recogOpc : ∀ p ∈ c.opc, p.2 ∈ c.recog
  scaleRPos : 0 < c.scaleR
  tpInside : tpDataLen c.tp ≤ payloadCap
  tpApart : fieldsApart c.tp.a 4 c.tp.ta 2 ∧ fieldsApart c.tp.a 4 c.tp.b 4 ∧ fieldsApart c.tp.a 4 c.tp.tb 2 ∧
    fieldsApart c.tp.a 4 c.tp.style 1 ∧ fieldsApart c.tp.ta 2 c.tp.b 4 ∧ fieldsApart c.tp.ta 2 c.tp.tb 2 ∧
    fieldsApart c.tp.ta 2 c.tp.style 1 ∧ fieldsApart c.tp.b 4 c.tp.tb 2 ∧ fieldsApart c.tp.b 4 c.tp.style 1 ∧
    fieldsApart c.tp.tb 2 c.tp.style 1
  ivInside : c.iv.volts + 4 ≤ payloadCap ∧ c.iv.milliamps + 4 ≤ payloadCap ∧ c.iv.watts + 4 ≤ payloadCap ∧
    c.iv.status0 < payloadCap ∧ c.iv.status1 < payloadCap
  piInside : c.pi.model + c.pi.modelLen ≤ payloadCap ∧ c.pi.fwMinor < payloadCap ∧ c.pi.fwMajor < payloadCap ∧
    c.pi.serial + c.pi.serialLen ≤ payloadCap

end Sys2Proof
end

