-- ==== Sys2Proof/Decode.lean ====
section
/-! DEFINITION. The decoder of request frames (30_encoding.md R80, R81, R93): a frame selects its row by bytes 0 and 2 alone, and
its data bytes give the operands by R82. Total on any bytes; what encodes no operation is rejected by name. After it the
encoder, written from the same tables, and the host's `decodeTableWord`. -/

namespace Sys2Proof

open Sys2Proof.Machine

/-! ### Decoder -/

/-- The payload slice of a frame (R57). -/
def payloadOf (bs : List Byte) : List Byte := (bs.drop payloadOff).take payloadCap

/-- The single field of a payload, as an SI quantity (R82). -/
def quantityField (p : List Byte) (s n : Nat) : Rat := unscale (memRead p 0 n) s

/-- The single field of a payload, as a flag (R82). -/
def flagField (p : List Byte) (k : Bool → Instr) : Except DecodeError Instr :=
  match flagOfByte (p.getD 0 0) with
  | some b => .ok (k b)
  | none => .error (.noMember (p.getD 0 0))

/-- The single field of a payload, as an enumeration string in canonical spelling (R82). -/
def enumField (p : List Byte) (e : EnumKind) (k : Text → Instr) : Except DecodeError Instr :=
  match enumTextOfCode e (p.getD 0 0) with
  | some t => .ok (k t)
  | none => .error (.noMember (p.getD 0 0))

/-- The single field of a payload, as a register index (R82, R211). -/
def indexField (p : List Byte) : Int := memRead p 0 1

/-- The five fields of a transient profile (R232). -/
def transientFields (c : Config) (m : Mode) (p : List Byte) (k : Text → Rat → Rat → Rat → Rat → Text → Instr) :
    Except DecodeError Instr :=
  let code : Byte := BitVec.ofNat 8 (memRead p c.tp.style 1)
  match styleTextOfCode code with
  | some st =>
    .ok (k (modeText m) (unscale (memRead p c.tp.a 4) (setPointScale c m)) (unscale (memRead p c.tp.ta 2) scaleT)
      (unscale (memRead p c.tp.b 4) (setPointScale c m)) (unscale (memRead p c.tp.tb 2) scaleT) st)
  | none => .error (.noMember code)

/-- The operands of the operation an opcode selected, read from the payload (R81, R82). -/
def operandsOf (c : Config) (op : OpName) (p : List Byte) : Except DecodeError Instr :=
  match op with
  | .setRemoteControl => flagField p .setRemoteControl
  | .setLoadState => flagField p .setLoadState
  | .setMaxVoltage => .ok (.setMaxVoltage (quantityField p scaleV 4))
  | .getMaxVoltage => .ok .getMaxVoltage
  | .setMaxCurrent => .ok (.setMaxCurrent (quantityField p scaleI 4))
  | .getMaxCurrent => .ok .getMaxCurrent
  | .setMaxPower => .ok (.setMaxPower (quantityField p scaleP 4))
  | .getMaxPower => .ok .getMaxPower
  | .setMode => enumField p .mode .setMode
  | .getMode => .ok .getMode
  | .setCCCurrent => .ok (.setCCCurrent (quantityField p scaleI 4))
  | .getCCCurrent => .ok .getCCCurrent
  | .setCVVoltage => .ok (.setCVVoltage (quantityField p scaleV 4))
  | .getCVVoltage => .ok .getCVVoltage
  | .setCWPower => .ok (.setCWPower (quantityField p scaleP 4))
  | .getCWPower => .ok .getCWPower
  | .setCRResistance => .ok (.setCRResistance (quantityField p c.scaleR 4))
  | .getCRResistance => .ok .getCRResistance
  | .setTransient .cc => transientFields c .cc p .setTransientCc
  | .setTransient .cv => transientFields c .cv p .setTransientCv
  | .setTransient .cw => transientFields c .cw p .setTransientCw
  | .setTransient .cr => transientFields c .cr p .setTransientCr
  | .getTransient .cc => .ok (.getTransientCc (modeText .cc))
  | .getTransient .cv => .ok (.getTransientCv (modeText .cv))
  | .getTransient .cw => .ok (.getTransientCw (modeText .cw))
  | .getTransient .cr => .ok (.getTransientCr (modeText .cr))
  | .setBatteryTestVoltage => .ok (.setBatteryTestVoltage (quantityField p scaleV 4))
  | .getBatteryTestVoltage => .ok .getBatteryTestVoltage
  | .setLoadOnTimer => .ok (.setLoadOnTimer (quantityField p 1 2))
  | .getLoadOnTimer => .ok .getLoadOnTimer
  | .setLoadOnTimerState => flagField p .setLoadOnTimerState
  | .getLoadOnTimerState => .ok .getLoadOnTimerState
  | .setTriggerSource => enumField p .trigger .setTriggerSource
  | .getTriggerSource => .ok .getTriggerSource
  | .triggerLoad => .ok .triggerLoad
  | .saveSettings => .ok (.saveSettings (indexField p))
  | .recallSettings => .ok (.recallSettings (indexField p))
  | .setFunction => enumField p .function .setFunction
  | .getFunction => .ok .getFunction
  | .getInputValues => .ok .getInputValues
  | .getProductInformation => .ok .getProductInformation

/-- The operation a frame encodes: by byte 0 and byte 2 alone (R80, R93). The address, reserved and checksum bytes are
no operand and are not looked at (entry 12). -/
def decode (c : Config) (bs : List Byte) : Except DecodeError Instr :=
  if bs.length ≠ frameLen then .error .length
  else if bs.getD 0 0 ≠ header then .error .header
  else
    let opcode := bs.getD 2 0
    if opcode = statusMark then .ok (.statusReply (bs.getD 1 0) (bs.getD 3 0))
    else
      match opOfOpcode c opcode with
      | some op => operandsOf c op (payloadOf bs)
      | none => .error (.noOperation opcode)

/-! ### Encoder -/

/-- The data bytes of one quantity (R82): none where `SCALE` raises. -/
def quantityData (c : Config) (x : Rat) (s n : Nat) : Option (List Byte) :=
  match scaleValue c.overflow x s n with
  | .ok w => some (leBytes n w)
  | .error _ => none

/-- The data byte of a register index (R211): none outside 1..25. -/
def indexData (r : Int) : Option (List Byte) :=
  if r < regMin ∨ regMax < r then none else some (leBytes 1 r.toNat)

/-- The data bytes of a transient profile (R232, R235). -/
def transientData (c : Config) (m : Mode) (a ta b tb : Rat) (style : Text) : Option (List Byte) :=
  match scaleValue c.overflow a (setPointScale c m) 4, scaleValue c.overflow ta scaleT 2,
      scaleValue c.overflow b (setPointScale c m) 4, scaleValue c.overflow tb scaleT 2, parseStyle c.caseFold style with
  | .ok wa, .ok wta, .ok wb, .ok wtb, some st => some (tpPack c.tp wa wta wb wtb (styleCode st).toNat)
  | _, _, _, _, _ => none

/-- The frame of an operation with its data bytes, for the device at `addr` (R80). -/
def requestFrame (c : Config) (op : OpName) (addr : Byte) (data : Option (List Byte)) : Option (List Byte) :=
  data.map (frameBytes (opcOf c op) addr)

/-- The frame of `setTransient` for a host's mode string (R144, R235). -/
def setTransientFrame (c : Config) (addr : Byte) (t : Text) (a ta b tb : Rat) (style : Text) : Option (List Byte) :=
  match parseMode c.caseFold t with
  | some m => requestFrame c (.setTransient m) addr (transientData c m a ta b tb style)
  | none => none

/-- The frame of `getTransient` for a host's mode string (R144, R237). -/
def getTransientFrame (c : Config) (addr : Byte) (t : Text) : Option (List Byte) :=
  match parseMode c.caseFold t with
  | some m => requestFrame c (.getTransient m) addr (some [])
  | none => none

/-- The frame of an operation (R80 to R82), addressed to `addr`; none for an operand that has no wire form and for an
operation without an encoding. A status frame carries the address of its own device. -/
def encode (c : Config) (addr : Byte) : Instr → Option (List Byte)
  | .setRemoteControl b => requestFrame c .setRemoteControl addr (some [flagByte b])
  | .setLoadState b => requestFrame c .setLoadState addr (some [flagByte b])
  | .setMaxVoltage x => requestFrame c .setMaxVoltage addr (quantityData c x scaleV 4)
  | .getMaxVoltage => requestFrame c .getMaxVoltage addr (some [])
  | .setMaxCurrent x => requestFrame c .setMaxCurrent addr (quantityData c x scaleI 4)
  | .getMaxCurrent => requestFrame c .getMaxCurrent addr (some [])
  | .setMaxPower x => requestFrame c .setMaxPower addr (quantityData c x scaleP 4)
  | .getMaxPower => requestFrame c .getMaxPower addr (some [])
  | .setMode t => requestFrame c .setMode addr ((parseMode c.caseFold t).map fun m => [modeCode m])
  | .getMode => requestFrame c .getMode addr (some [])
  | .setCCCurrent x => requestFrame c .setCCCurrent addr (quantityData c x scaleI 4)
  | .getCCCurrent => requestFrame c .getCCCurrent addr (some [])
  | .setCVVoltage x => requestFrame c .setCVVoltage addr (quantityData c x scaleV 4)
  | .getCVVoltage => requestFrame c .getCVVoltage addr (some [])
  | .setCWPower x => requestFrame c .setCWPower addr (quantityData c x scaleP 4)
  | .getCWPower => requestFrame c .getCWPower addr (some [])
  | .setCRResistance x => requestFrame c .setCRResistance addr (quantityData c x c.scaleR 4)
  | .getCRResistance => requestFrame c .getCRResistance addr (some [])
  | .setTransientCc t a ta b tb st => setTransientFrame c addr t a ta b tb st
  | .getTransientCc t => getTransientFrame c addr t
  | .setTransientCv t a ta b tb st => setTransientFrame c addr t a ta b tb st
  | .getTransientCv t => getTransientFrame c addr t
  | .setTransientCw t a ta b tb st => setTransientFrame c addr t a ta b tb st
  | .getTransientCw t => getTransientFrame c addr t
  | .setTransientCr t a ta b tb st => setTransientFrame c addr t a ta b tb st
  | .getTransientCr t => getTransientFrame c addr t
  | .setBatteryTestVoltage x => requestFrame c .setBatteryTestVoltage addr (quantityData c x scaleV 4)
  | .getBatteryTestVoltage => requestFrame c .getBatteryTestVoltage addr (some [])
  | .setLoadOnTimer x => requestFrame c .setLoadOnTimer addr (quantityData c x 1 2)
  | .getLoadOnTimer => requestFrame c .getLoadOnTimer addr (some [])
  | .setLoadOnTimerState b => requestFrame c .setLoadOnTimerState addr (some [flagByte b])
  | .getLoadOnTimerState => requestFrame c .getLoadOnTimerState addr (some [])
  | .setTriggerSource t =>
    requestFrame c .setTriggerSource addr ((parseTrigger c.caseFold t).map fun m => [triggerCode m])
  | .getTriggerSource => requestFrame c .getTriggerSource addr (some [])
  | .triggerLoad => requestFrame c .triggerLoad addr (some [])
  | .saveSettings r => requestFrame c .saveSettings addr (indexData r)
  | .recallSettings r => requestFrame c .recallSettings addr (indexData r)
  | .setFunction t => requestFrame c .setFunction addr ((parseFunction c.caseFold t).map fun m => [functionCode m])
  | .getFunction => requestFrame c .getFunction addr (some [])
  | .getInputValues => requestFrame c .getInputValues addr (some [])
  | .getProductInformation => requestFrame c .getProductInformation addr (some [])
  | .statusReply device status => some (frameBytes statusMark device [status])
  | .openSession _ _ _ | .closeSession | .csum8 _ | .csumOk _ | .hdrDet _ | .encInt _ _ | .decInt _
  | .encodeFrame _ _ _ | .decodeFrame _ | .statusMap _ | .lookup _ | .scale _ _ _ | .unscale _ _ | .build _ _ | .tpEnc
  | .tpDec _ | .fwText _ _ | .transact _ => none

/-! ### The host's numbering -/

/-- The 26 frame bytes of an instruction whose bits are `w`, bit 0 the least significant bit of byte 0; bits from
`nbits` up are 0. -/
def tableBytes (nbits w : Nat) : List Byte :=
  (List.range frameLen).map fun k => BitVec.ofNat 8 ((w % 2 ^ nbits) >>> (8 * k))

/-- The instruction the decoder reads from a table word, under the default configuration. -/
def decodeTableWord (nbits w : Nat) : Option Instr :=
  match decode defaultConfig (tableBytes nbits w) with
  | .ok i => some i
  | .error _ => none

end Sys2Proof
end

