-- ==== Sys2Proof/Machine/State.lean ====
section
/-! DEFINITION. The machine's state, field for field the table of 10_state.md R20, then the model's own fields; the reasons a
step can stop; and the state after reset (R39). -/

namespace Sys2Proof.Machine

/-- `SESS` (R21). -/
inductive Sess where
  | closed | opened
deriving DecidableEq, Repr

/-- `PHASE` (R23). -/
inductive Phase where
  | idle | rx
deriving DecidableEq, Repr

/-- `CUR` (R27): the host operation and the descriptor of the transaction in progress. -/
structure Latch where
  op : OpName
  desc : Desc
deriving DecidableEq, Repr

/-- What stands on the command port (30_encoding.md R83, entry 12): an operation as a value, or a request frame that
encodes one. -/
inductive Command where
  | call (i : Instr)
  | frame (bytes : List Byte)
deriving DecidableEq, Repr

/-- One turn of one agent (00_scope.md R12, entry 2). -/
inductive Turn where
  /-- A command is issued. -/
  | cmd (c : Command)
  /-- The peer supplies a byte (R35). -/
  | peer (b : Byte)
  /-- The read timer fires (R37). -/
  | timeout
  /-- The SFC takes its own step, if it has one (R274). -/
  | sfc
  /-- From now on the transport answers an open with this (R278): whether the port can be claimed. -/
  | port (isFree : Bool)
deriving DecidableEq, Repr

/-- Why the machine stops. Each is the spec's "stuck" (00_scope.md R11), or cannot arise. -/
inductive Fault where
  /-- Raised by the waiting step: PHASE is RX, the 26 bytes are not in, RXSTREAM is empty and no turn of any agent is
  left (R279, R11). Safe: the hardware waits on. -/
  | stuckReceiving
  /-- Raised by the waiting step: PHASE is IDLE and no turn of any agent is left (R11, entry 13). Safe: the hardware
  waits on. -/
  | stuckIdle
  /-- Raised by the completion: CUR holds a single-field query of kind none or composite, which no row of R142 is. Safe:
  no state that keeps the invariant reaches it. -/
  | noCompletion
deriving DecidableEq, Repr

/-- Why an operation has no meaning: the spec's "refused" (00_scope.md R11). -/
inductive Refusal where
  /-- Raised by the dispatch for an instruction whose meaning is not written yet. Safe. -/
  | notModelled (mnemonic : String)
  /-- Raised by the gate: a host operation with SESS = CLOSED (R21, D22). Safe. -/
  | noSession
  /-- Raised by the gate, `open`, `close` and TRANSACT: an operation issued while PHASE = RX (R23, D26). Safe. -/
  | overlap
  /-- Raised by `open` with SESS = OPEN (R271, D22). Safe. -/
  | alreadyOpen
  /-- Raised by `open` with addressByte = 0xFF (R22, R271, D32). Safe. -/
  | forbiddenAddress
  /-- Raised by ENCODE and BUILD outside the preconditions of R119 (D6). Safe. -/
  | encodePrecondition
  /-- Raised by the fetch: the request frame on the command port encodes no operation. Safe. -/
  | undecodable (e : DecodeError)
deriving DecidableEq, Repr

/-- The state: the rows of R20 in their order, then the model's own fields. -/
structure State where
  /-- `SESS` (R21). -/
  sess : Sess
  /-- `ADDR` (R22). -/
  addr : Byte
  /-- `PHASE` (R23). -/
  phase : Phase
  /-- `TXBUF[0..25]` (R24). -/
  txbuf : List Byte
  /-- `RXBUF[0..25]` (R25). -/
  rxbuf : List Byte
  /-- `RXCNT` (R26). -/
  rxcnt : Nat
  /-- `CUR` (R27). -/
  cur : Latch
  /-- `OPR` (R28). -/
  opr : BitVec 32
  /-- `TP_MODE` (R29). -/
  tpMode : BitVec 2
  /-- `TP_A` (R29). -/
  tpA : BitVec 32
  /-- `TP_TA` (R29). -/
  tpTA : BitVec 16
  /-- `TP_B` (R29). -/
  tpB : BitVec 32
  /-- `TP_TB` (R29). -/
  tpTB : BitVec 16
  /-- `TP_STYLE` (R29). -/
  tpStyle : BitVec 8
  /-- `RES` (R30). -/
  res : Result
  /-- `TXSTREAM` (R34), oldest byte first. -/
  txstream : List Byte
  /-- `RXSTREAM` (R35), oldest byte first. -/
  rxstream : List Byte
  /-- The model's own: the parameters of R5, which no operation writes. -/
  cfg : Config
  /-- The model's own: the turns to come (entry 2). -/
  turns : List Turn
  /-- The model's own: whether the port can be claimed (R278, entry 8). -/
  portFree : Bool
  /-- The model's own: whether the transaction in flight was started by TRANSACT on its own (entry 10). -/
  rawTxn : Bool
  /-- The model's own: what a primitive used on its own last returned (entry 9). -/
  ret : Ret
deriving DecidableEq, Repr

/-- The machine right after reset (R39, R330). The buffers, CUR, OPR, the TP registers and RES, for which R39 gives
no value, hold the values entry 1 names. -/
def State.reset : State where
  sess := .closed
  addr := 0x00
  phase := .idle
  txbuf := List.replicate frameLen 0
  rxbuf := List.replicate frameLen 0
  rxcnt := 0
  cur := { op := .setRemoteControl, desc := lookup defaultConfig .setRemoteControl }
  opr := 0
  tpMode := 0
  tpA := 0
  tpTA := 0
  tpB := 0
  tpTB := 0
  tpStyle := 0
  res := .done
  txstream := []
  rxstream := []
  cfg := defaultConfig
  turns := []
  portFree := true
  rawTxn := false
  ret := .nothing

end Sys2Proof.Machine
end

