-- ==== Sys2Proof/Machine/Ops.lean ====
section
/-! DEFINITION. The named operations the meanings are made of: raising an error (60_exceptions.md R305), the gate, the scaler's
write of OPR, BUILD, the write, receive and timeout steps (45_transport_session.md R273 to R275), the issue step
(41_command_table_dispatch.md R151), the transient-profile registers, and the completions. -/

namespace Sys2Proof.Machine

/-- The three outcomes of this machine. -/
abbrev Out := Host.Outcome State Fault Refusal

/-! ### Ending an operation -/

/-- `raise E` (R305): the SFC's exception. RES gets the error and PHASE goes to IDLE; nothing else changes. There is no
return from it (R310): the next operation is simply taken. -/
def raise (e : Err) (s : State) : State := { s with res := .error e, phase := .idle }

/-- The end of a completion (R152, R153): RES gets the result and PHASE goes to IDLE. -/
def deliver (r : Result) (s : State) : State := { s with res := r, phase := .idle }

/-- What a primitive used on its own returns (entry 9). -/
def answer (r : Ret) (s : State) : State := { s with ret := r }

/-! ### Issuing an operation -/

/-- The gate of every host operation but `open` and `close` (R151 step 0, R301): SESS = OPEN and PHASE = IDLE. -/
def gate (s : State) (k : State → Out) : Out :=
  if s.sess = .closed then .refused .noSession
  else if s.phase = .rx then .refused .overlap
  else k s

/-- `SCALE(x, s, n)` inside an operation (R146): on success OPR holds the wire integer; on failure the operation ends. -/
def withScale (x : Rat) (sc n : Nat) (s : State) (k : Nat → State → Out) : Out :=
  match scaleValue s.cfg.overflow x sc n with
  | .ok w => k w { s with opr := BitVec.ofNat 32 w }
  | .error e => .next (raise e s)

/-- `BUILD(d, data)` (R150): the frame goes to TXBUF. The error and the refusal of ENCODE are the caller's to act on. -/
def build (d : Desc) (data : List Byte) (s : State) (onFrame : State → Out) (onError : Err → Out) : Out :=
  match encodeFrame s.cfg.recog d.opcode s.addr data with
  | .frame f => onFrame { s with txbuf := f }
  | .error e => onError e
  | .outside => .refused .encodePrecondition

/-- The write step (R273): all 26 bytes of TXBUF in one step. -/
def writeStep (s : State) : State :=
  { s with txstream := s.txstream ++ s.txbuf, rxcnt := 0, phase := .rx }

/-- Steps 2 to 5 of the issue step (R151): latch the descriptor, build the frame, write it. -/
def issue (op : OpName) (data : List Byte) (s : State) : Out :=
  let s1 := { s with cur := { op := op, desc := lookup s.cfg op }, rawTxn := false }
  build s1.cur.desc data s1 (fun s2 => .next (writeStep s2)) (fun e => .next (raise e s1))

/-- A set operation of one scaled quantity (R82, R170): `w = SCALE(x, sc, n); SET(LOOKUP(op), ENCINT(w, n))`. -/
def setQuantity (op : OpName) (x : Rat) (sc n : Nat) (s : State) : Out :=
  gate s fun s => withScale x sc n s fun w s => issue op (leBytes n w) s

/-- A set operation of one flag (R82). -/
def setFlag (op : OpName) (b : Bool) (s : State) : Out :=
  gate s fun s => issue op [flagByte b] s

/-- A set operation of one enumeration member (R86): an unrecognised string ends it with the error `e`. -/
def setEnum (op : OpName) (code : Option Byte) (e : Err) (s : State) : Out :=
  gate s fun s =>
    match code with
    | some b => issue op [b] s
    | none => .next (raise e s)

/-- A set operation of a register index (R211, R212). -/
def setIndex (op : OpName) (r : Int) (s : State) : Out :=
  gate s fun s =>
    if r < regMin ∨ regMax < r then .next (raise .outOfRange s) else issue op (leBytes 1 r.toNat) s

/-- A get operation, and a set operation without data (R151 with empty data). -/
def issueEmpty (op : OpName) (s : State) : Out :=
  gate s fun s => issue op [] s

/-! ### The transient-profile registers -/

/-- `TPENC()` (R233): the data bytes of the five registers, at the offsets of TP_LAYOUT. -/
def tpEncode (s : State) : List Byte :=
  tpPack s.cfg.tp s.tpA.toNat s.tpTA.toNat s.tpB.toNat s.tpTB.toNat s.tpStyle.toNat

/-- `TPDEC(payload)` (R234). TP_MODE is not written. -/
def tpDecode (p : List Byte) (s : State) : State :=
  { s with
    tpA := BitVec.ofNat 32 (memRead p s.cfg.tp.a 4)
    tpTA := BitVec.ofNat 16 (memRead p s.cfg.tp.ta 2)
    tpB := BitVec.ofNat 32 (memRead p s.cfg.tp.b 4)
    tpTB := BitVec.ofNat 16 (memRead p s.cfg.tp.tb 2)
    tpStyle := BitVec.ofNat 8 (memRead p s.cfg.tp.style 1) }

/-- A payload at least `n` bytes long: the bytes given, and a free value at every offset they do not reach (entry 23). -/
def fillAbsent (p : List Byte) (n : Nat) : List Byte :=
  p ++ (List.range (n - p.length)).map fun k => Config.absentByte p (p.length + k)

/-- TP_MODE's code of a mode (R29). -/
def tpModeCode (m : Mode) : BitVec 2 := (modeCode m).setWidth 2

/-- `setTransient` for a host's mode string (R235), in the order the rule lists its steps. -/
def setTransient (t : Text) (a ta b tb : Rat) (style : Text) (s : State) : Out :=
  gate s fun s =>
    match parseMode s.cfg.caseFold t with
    | none => .next (raise .unknownMode s)
    | some m =>
      withScale a (setPointScale s.cfg m) 4 s fun wa s =>
      withScale ta scaleT 2 s fun wta s =>
      withScale b (setPointScale s.cfg m) 4 s fun wb s =>
      withScale tb scaleT 2 s fun wtb s =>
      match parseStyle s.cfg.caseFold style with
      | none => .next (raise .invalidParameter s)
      | some st =>
        let s := { s with
          tpMode := tpModeCode m
          tpA := BitVec.ofNat 32 wa
          tpTA := BitVec.ofNat 16 wta
          tpB := BitVec.ofNat 32 wb
          tpTB := BitVec.ofNat 16 wtb
          tpStyle := styleCode st }
        issue (.setTransient m) (tpEncode s) s

/-- `getTransient` for a host's mode string (R237), steps 1 to 3. -/
def getTransient (t : Text) (s : State) : Out :=
  gate s fun s =>
    match parseMode s.cfg.caseFold t with
    | none => .next (raise .unknownMode s)
    | some m => issue (.getTransient m) [] { s with tpMode := tpModeCode m }

/-! ### Completions -/

/-- The result of a single-field query from its wire integer (R153, R82). None for the kinds no such query has. -/
def fieldResult (d : Desc) (w : Nat) : Option Result :=
  match d.kind with
  | .quantity | .integer => some (.value (.number (unscale w d.scale)))
  | .flag =>
    match flagOfByte (BitVec.ofNat 8 w) with
    | some b => some (.value (.flag b))
    | none => some (.error (.unmappedCode (BitVec.ofNat 8 w)))
  | .enum e =>
    match enumTextOfCode e (BitVec.ofNat 8 w) with
    | some t => some (.value (.text t))
    | none => some (.error (.unmappedCode (BitVec.ofNat 8 w)))
  | .none | .composite => none

/-- The get completion of a single field (R153). -/
def completeSingle (p : List Byte) (s : State) : Out :=
  match fieldResult s.cur.desc (memRead p 0 s.cur.desc.width) with
  | some r => .next (deliver r s)
  | none => .fault .noCompletion

/-- Steps 6 and 7 of `getTransient` (R237): the result from the registers. -/
def transientResult (s : State) : Result :=
  match styleTextOfCode s.tpStyle with
  | some st =>
    .value (.transient (unscale s.tpA.toNat s.cur.desc.scale) (unscale s.tpTA.toNat scaleT)
      (unscale s.tpB.toNat s.cur.desc.scale) (unscale s.tpTB.toNat scaleT) st)
  | none => .error (.unmappedCode s.tpStyle)

/-- The completion of `getTransient` (R237 steps 5 to 7). -/
def completeTransient (p : List Byte) (s : State) : State :=
  deliver (transientResult (tpDecode p s)) (tpDecode p s)

/-- The value of `getInputValues` (R252). -/
def inputValues (l : IVLayout) (p : List Byte) : Value :=
  .inputValues (unscale (memRead p l.volts 4) scaleV) (unscale (memRead p l.milliamps 4) scaleI)
    (unscale (memRead p l.watts 4) scaleP) (p.getD l.status0 0) (p.getD l.status1 0)

/-- The value of `getProductInformation` (R257): the text fields as raw bytes. -/
def productInformation (l : PILayout) (p : List Byte) : Value :=
  .productInformation ((p.drop l.model).take l.modelLen) (p.getD l.fwMajor 0) (p.getD l.fwMinor 0)
    (fwText (p.getD l.fwMajor 0) (p.getD l.fwMinor 0)) ((p.drop l.serial).take l.serialLen)

/-- The completion of the operation in CUR on a parsed reply (R152, R153, R237, R252, R257): by direction, then by
layout (R158). A set reads the status, a get the payload (R121); nothing ties the reply to the request (R122). -/
def completeParsed (p : ParsedFrame) (s : State) : Out :=
  match s.cur.desc.dir with
  | .set => .next (deliver (.outcome (statusMap p.status)) s)
  | .query =>
    match s.cur.desc.layout with
    | .single => completeSingle p.payload s
    | .tp => .next (completeTransient p.payload s)
    | .iv => .next (deliver (.value (inputValues s.cfg.iv p.payload)) s)
    | .pi => .next (deliver (.value (productInformation s.cfg.pi p.payload)) s)

/-- The completion of the transaction in flight, once 26 bytes are in (R23, R152 to R154). A TRANSACT used on its own
hands back the raw bytes (R277, entry 10). -/
def complete (s : State) : Out :=
  if s.rawTxn then .next (answer (.bytes s.rxbuf) { s with phase := .idle })
  else
    match decodeFrame s.cfg.recog s.rxbuf with
    | .error e => .next (raise e s)
    | .ok p => completeParsed p s

/-! ### The sequencer's own steps and the events -/

/-- The receive step (R274): `RXBUF[RXCNT] <- RXSTREAM.take(); RXCNT <- RXCNT + 1`. -/
def receive (b : Byte) (rest : List Byte) (s : State) : State :=
  { s with rxbuf := s.rxbuf.set s.rxcnt b, rxcnt := s.rxcnt + 1, rxstream := rest }

/-- The SFC's own step (R23, R274): receive a byte, or complete; `blocked` where it has no enabled step. -/
def sfcStep (s : State) (blocked : Out) : Out :=
  match s.phase with
  | .idle => blocked
  | .rx =>
    if s.rxcnt < frameLen then
      match s.rxstream with
      | [] => blocked
      | b :: rest => .next (receive b rest s)
    else complete s

/-- The timeout event (R275): it acts in phase RX with RXCNT below 26 and nowhere else (R300). The bytes taken are
gone; nothing is decoded. -/
def timeoutEvent (s : State) : State :=
  if s.phase = .rx ∧ s.rxcnt < frameLen then
    let s1 := raise .transportTimeout s
    if s.rawTxn then answer (.error .transportTimeout) s1 else s1
  else s

/-- The peer supplies bytes (R35): they wait in RXSTREAM, in any phase. -/
def supply (bs : List Byte) (s : State) : State := { s with rxstream := s.rxstream ++ bs }

/-- Why a machine with no turn left and no step of its own is stuck (R11, R279). -/
def stuckReason (s : State) : Fault :=
  match s.phase with
  | .rx => .stuckReceiving
  | .idle => .stuckIdle

/-- The instruction on the command port (entry 12). -/
def fetch (c : Config) : Command → Except DecodeError Instr
  | .call i => .ok i
  | .frame bs => decode c bs

end Sys2Proof.Machine
end

