-- ==== Sys2Proof/Machine/Control.lean ====
section
/-! DEFINITION. Front end, mode, function, trigger and register-slot operations (42_scalar_operations.md sections 1, 3, 7, 8, 9). -/

namespace Sys2Proof.Machine

/-- `setRemoteControl(remote)` (R171). -/
def execSetRemoteControl (remote : Bool) (s : State) : Out := setFlag .setRemoteControl remote s

/-- `setLoadState(on)` (R172). -/
def execSetLoadState (on : Bool) (s : State) : Out := setFlag .setLoadState on s

/-- `setMode(s)` (R179): an unrecognised string is UnknownMode. -/
def execSetMode (t : Text) (s : State) : Out :=
  setEnum .setMode ((parseMode s.cfg.caseFold t).map modeCode) .unknownMode s

/-- `getMode()` (R180). -/
def execGetMode (s : State) : Out := issueEmpty .getMode s

/-- `setTriggerSource(s)` (R195): an unrecognised string is InvalidParameter. -/
def execSetTriggerSource (t : Text) (s : State) : Out :=
  setEnum .setTriggerSource ((parseTrigger s.cfg.caseFold t).map triggerCode) .invalidParameter s

/-- `getTriggerSource()` (R196). -/
def execGetTriggerSource (s : State) : Out := issueEmpty .getTriggerSource s

/-- `triggerLoad()` (R197): the set pattern with empty data. -/
def execTriggerLoad (s : State) : Out := issueEmpty .triggerLoad s

/-- `saveSettings(register)` (R211). -/
def execSaveSettings (r : Int) (s : State) : Out := setIndex .saveSettings r s

/-- `recallSettings(register)` (R212). -/
def execRecallSettings (r : Int) (s : State) : Out := setIndex .recallSettings r s

/-- `setFunction(s)` (R213): an unrecognised string is UnknownFunction. -/
def execSetFunction (t : Text) (s : State) : Out :=
  setEnum .setFunction ((parseFunction s.cfg.caseFold t).map functionCode) .unknownFunction s

/-- `getFunction()` (R214). -/
def execGetFunction (s : State) : Out := issueEmpty .getFunction s

end Sys2Proof.Machine
end

