-- ==== Sys2Proof/Machine/Primitives.lean ====
section
/-! DEFINITION. The primitives used on their own (40_codec_primitives.md; 41_command_table_dispatch.md R143 to R150;
43_transient_profile.md R233, R234; 44_composite_queries.md R258; program P5 of 95_test_vectors.md). They need no session. What one
returns, and an error it raises, is its answer in `ret` (entry 9); it writes no register but the one its rule names. They run in
either PHASE: R23 refuses host operations alone, the spec is silent on a primitive in RX, and going on is the model's
DESIGN CHOICE (entry 24). -/

namespace Sys2Proof.Machine

/-- `CSUM8(b)` (R111). -/
def execCsum8 (b : Vector Byte 25) (s : State) : Out := .next (answer (.byte (csum8 b.toList)) s)

/-- `CSUMOK(f)` (R112). -/
def execCsumOk (f : Vector Byte 26) (s : State) : Out := .next (answer (.bool (csumOk f.toList)) s)

/-- `HDRDET(f)` (R113). -/
def execHdrDet (f : {l : List Byte // l ≠ []}) (s : State) : Out := .next (answer (.bool (hdrDet f.val)) s)

/-- `ENCINT(v, n)` (R114, R115). -/
def execEncInt (v : Int) (n : IntWidth) (s : State) : Out :=
  match encInt s.cfg.overflow v (widthBytes n) with
  | .ok b => .next (answer (.bytes b) s)
  | .error e => .next (answer (.error e) s)

/-- `DECINT(b)` (R116). -/
def execDecInt (b : List Byte) (s : State) : Out := .next (answer (.nat (decInt b)) s)

/-- `ENCODE(opc, addr, p)` (R118, R119). -/
def execEncodeFrame (opc addr : Byte) (p : List Byte) (s : State) : Out :=
  match encodeFrame s.cfg.recog opc addr p with
  | .frame f => .next (answer (.bytes f) s)
  | .error e => .next (answer (.error e) s)
  | .outside => .refused .encodePrecondition

/-- `DECODE(raw)` (R120). -/
def execDecodeFrame (raw : List Byte) (s : State) : Out :=
  match decodeFrame s.cfg.recog raw with
  | .ok p => .next (answer (.parsed p) s)
  | .error e => .next (answer (.error e) s)

/-- `STATUSMAP(s)` (R124). -/
def execStatusMap (b : Byte) (s : State) : Out := .next (answer (.outcome (statusMap b)) s)

/-- `LOOKUP(op)` and `LOOKUP(op, m)` (R143, R144). -/
def execLookup (op : OpName) (s : State) : Out := .next (answer (.desc (lookup s.cfg op)) s)

/-- `SCALE(x, s, n)` (R146), for any scale and width (95_test_vectors.md 2.7): on success it also latches OPR (entry 22), in
PHASE = RX too, where no rule reads it (entry 24: DESIGN CHOICE). -/
def execScale (x : Rat) (sc n : Nat) (s : State) : Out :=
  match scaleValue s.cfg.overflow x sc n with
  | .ok w => .next (answer (.nat w) { s with opr := oprOf w })
  | .error e => .next (answer (.error e) s)

/-- `UNSCALE(w, s)` (R149). -/
def execUnscale (w : Nat) (sc : PNat) (s : State) : Out := .next (answer (.rat (unscale w sc)) s)

/-- `BUILD(d, data)` (R150): TXBUF gets the frame; in PHASE = RX too, where the request in TXBUF has been written already (entry
24: DESIGN CHOICE). -/
def execBuild (d : Desc) (data : List Byte) (s : State) : Out :=
  build d data s (fun s => .next (answer .nothing s)) (fun e => .next (answer (.error e) s))

/-- `TPENC()` (R233). -/
def execTpEnc (s : State) : Out := .next (answer (.bytes (tpEncode s)) s)

/-- `TPDEC(payload)` (R234): the five registers get the fields, from any bytes that hold them (13 by default); where the
bytes do not reach a field, its missing bytes are free values (entry 23). In PHASE = RX too, where the completion of a
getTransient writes the five registers anew before it reads them (entry 24: DESIGN CHOICE). -/
def execTpDec (p : List Byte) (s : State) : Out :=
  .next (answer .nothing (tpDecode (fillAbsent p (tpDataLen s.cfg.tp)) s))

/-- `FWTEXT(hi, lo)` (R258). -/
def execFwText (hi lo : Byte) (s : State) : Out := .next (answer (.text (fwText hi lo)) s)

end Sys2Proof.Machine
end

