-- ==== Sys2Proof/Machine/Quantities.lean ====
section
/-! DEFINITION. Limits, per-mode set points, battery test and load-on timer (42_scalar_operations.md sections 2, 4, 5, 6). -/

namespace Sys2Proof.Machine

/-- `setMaxVoltage(x)`, volts (R173). -/
def execSetMaxVoltage (x : Rat) (s : State) : Out := setQuantity .setMaxVoltage x scaleV 4 s

/-- `getMaxVoltage()` (R174). -/
def execGetMaxVoltage (s : State) : Out := issueEmpty .getMaxVoltage s

/-- `setMaxCurrent(x)`, milliamperes (R175). -/
def execSetMaxCurrent (x : Rat) (s : State) : Out := setQuantity .setMaxCurrent x scaleI 4 s

/-- `getMaxCurrent()` (R176). -/
def execGetMaxCurrent (s : State) : Out := issueEmpty .getMaxCurrent s

/-- `setMaxPower(x)`, watts (R177). -/
def execSetMaxPower (x : Rat) (s : State) : Out := setQuantity .setMaxPower x scaleP 4 s

/-- `getMaxPower()` (R178). -/
def execGetMaxPower (s : State) : Out := issueEmpty .getMaxPower s

/-- `setCCCurrent(x)`, milliamperes (R181). -/
def execSetCCCurrent (x : Rat) (s : State) : Out := setQuantity .setCCCurrent x scaleI 4 s

/-- `getCCCurrent()` (R182). -/
def execGetCCCurrent (s : State) : Out := issueEmpty .getCCCurrent s

/-- `setCVVoltage(x)`, volts (R183). -/
def execSetCVVoltage (x : Rat) (s : State) : Out := setQuantity .setCVVoltage x scaleV 4 s

/-- `getCVVoltage()` (R184). -/
def execGetCVVoltage (s : State) : Out := issueEmpty .getCVVoltage s

/-- `setCWPower(x)`, watts (R185). -/
def execSetCWPower (x : Rat) (s : State) : Out := setQuantity .setCWPower x scaleP 4 s

/-- `getCWPower()` (R186). -/
def execGetCWPower (s : State) : Out := issueEmpty .getCWPower s

/-- `setCRResistance(x)`, ohms, at SCALE_R (R187). -/
def execSetCRResistance (x : Rat) (s : State) : Out := setQuantity .setCRResistance x s.cfg.scaleR 4 s

/-- `getCRResistance()` (R188). -/
def execGetCRResistance (s : State) : Out := issueEmpty .getCRResistance s

/-- `setBatteryTestVoltage(x)`, volts (R189). -/
def execSetBatteryTestVoltage (x : Rat) (s : State) : Out := setQuantity .setBatteryTestVoltage x scaleV 4 s

/-- `getBatteryTestVoltage()` (R190). -/
def execGetBatteryTestVoltage (s : State) : Out := issueEmpty .getBatteryTestVoltage s

/-- `setLoadOnTimer(x)`, seconds, unscaled, two bytes (R191). -/
def execSetLoadOnTimer (x : Rat) (s : State) : Out := setQuantity .setLoadOnTimer x 1 2 s

/-- `getLoadOnTimer()` (R192). -/
def execGetLoadOnTimer (s : State) : Out := issueEmpty .getLoadOnTimer s

/-- `setLoadOnTimerState(enabled)` (R193). -/
def execSetLoadOnTimerState (enabled : Bool) (s : State) : Out := setFlag .setLoadOnTimerState enabled s

/-- `getLoadOnTimerState()` (R194). -/
def execGetLoadOnTimerState (s : State) : Out := issueEmpty .getLoadOnTimerState s

end Sys2Proof.Machine
end

