-- ==== Sys2Proof/Machine/Session.lean ====
section
/-! DEFINITION. The session operations and the bare transaction (45_transport_session.md R271, R276, R277), the status frame of
the device (30_encoding.md R88, 40_codec_primitives.md R124), and the shutdown convention (R92). -/

namespace Sys2Proof.Machine

/-- `open(port, baudRate, addressByte)` (R271): the port and the baud rate go to the transport and are not kept (R33);
the transport's answer is `portFree` (R278). It sends nothing and flushes nothing. -/
def execOpenSession (_port : Text) (_baudRate : Nat) (addressByte : Byte) (s : State) : Out :=
  if s.phase = .rx then .refused .overlap
  else if s.sess = .opened then .refused .alreadyOpen
  else if addressByte = addrForbidden then .refused .forbiddenAddress
  else if s.portFree then
    .next { s with addr := addressByte, sess := .opened, phase := .idle, rxcnt := 0, res := .done }
  else .next (raise .transportOpenError s)

/-- `close()` (R276): idempotent; it sends nothing, keeps ADDR and empties nothing. -/
def execCloseSession (s : State) : Out :=
  if s.phase = .rx then .refused .overlap
  else .next { s with sess := .closed, res := .done }

/-- `TRANSACT(frame)` on its own (R277), its write step; the receive, completion and timeout steps follow (R274,
R275, entry 10). -/
def execTransact (frame : Vector Byte 26) (s : State) : Out :=
  gate s fun s => .next (writeStep { s with txbuf := frame.toList, rawTxn := true })

/-- A status frame arrives from the device (R88, R13, entry 11): its 26 bytes join RXSTREAM, to be taken one at a time and
mapped by the completion of the set operation in flight (R124, R152). -/
def execStatusReply (device status : Byte) (s : State) : Out :=
  .next (supply (frameBytes statusMark device [status]) s)

/-- The shutdown convention (R92): the one pseudo-operation, a sequence the host issues. -/
def shutdownConvention : List Instr := [.setLoadState false, .setRemoteControl false, .closeSession]

end Sys2Proof.Machine
end

