-- ==== Sys2Proof/Machine/Transient.lean ====
section
/-! DEFINITION. The transient operations (43_transient_profile.md R235, R237), one meaning for each table row, and the composite
queries (44_composite_queries.md R252, R257). The host's operation is one: every row dispatches on the mode argument
(R144, entry 7). -/

namespace Sys2Proof.Machine

/-- `setTransient`, the row of mode "cc" (R235). -/
def execSetTransientCc (mode : Text) (a ta b tb : Rat) (style : Text) (s : State) : Out :=
  setTransient mode a ta b tb style s

/-- `getTransient`, the row of mode "cc" (R237). -/
def execGetTransientCc (mode : Text) (s : State) : Out := getTransient mode s

/-- `setTransient`, the row of mode "cv" (R235). -/
def execSetTransientCv (mode : Text) (a ta b tb : Rat) (style : Text) (s : State) : Out :=
  setTransient mode a ta b tb style s

/-- `getTransient`, the row of mode "cv" (R237). -/
def execGetTransientCv (mode : Text) (s : State) : Out := getTransient mode s

/-- `setTransient`, the row of mode "cw" (R235). -/
def execSetTransientCw (mode : Text) (a ta b tb : Rat) (style : Text) (s : State) : Out :=
  setTransient mode a ta b tb style s

/-- `getTransient`, the row of mode "cw" (R237). -/
def execGetTransientCw (mode : Text) (s : State) : Out := getTransient mode s

/-- `setTransient`, the row of mode "cr" (R235). -/
def execSetTransientCr (mode : Text) (a ta b tb : Rat) (style : Text) (s : State) : Out :=
  setTransient mode a ta b tb style s

/-- `getTransient`, the row of mode "cr" (R237). -/
def execGetTransientCr (mode : Text) (s : State) : Out := getTransient mode s

/-- `getInputValues()` (R252). -/
def execGetInputValues (s : State) : Out := issueEmpty .getInputValues s

/-- `getProductInformation()` (R257). -/
def execGetProductInformation (s : State) : Out := issueEmpty .getProductInformation s

end Sys2Proof.Machine
end

