-- ==== Sys2Proof/Machine/Dispatch.lean ====
section
/-! DEFINITION. The dispatch: one arm for each constructor of Instr, in the order of spec/opcode_table.json. -/

namespace Sys2Proof.Machine

def exec (i : Instr) (s : State) : Host.Outcome State Fault Refusal :=
  match i with
  | .setRemoteControl remote => Sys2Proof.Machine.execSetRemoteControl remote s
  | .setLoadState on => Sys2Proof.Machine.execSetLoadState on s
  | .setMaxVoltage x => Sys2Proof.Machine.execSetMaxVoltage x s
  | .getMaxVoltage => Sys2Proof.Machine.execGetMaxVoltage s
  | .setMaxCurrent x => Sys2Proof.Machine.execSetMaxCurrent x s
  | .getMaxCurrent => Sys2Proof.Machine.execGetMaxCurrent s
  | .setMaxPower x => Sys2Proof.Machine.execSetMaxPower x s
  | .getMaxPower => Sys2Proof.Machine.execGetMaxPower s
  | .setMode t => Sys2Proof.Machine.execSetMode t s
  | .getMode => Sys2Proof.Machine.execGetMode s
  | .setCCCurrent x => Sys2Proof.Machine.execSetCCCurrent x s
  | .getCCCurrent => Sys2Proof.Machine.execGetCCCurrent s
  | .setCVVoltage x => Sys2Proof.Machine.execSetCVVoltage x s
  | .getCVVoltage => Sys2Proof.Machine.execGetCVVoltage s
  | .setCWPower x => Sys2Proof.Machine.execSetCWPower x s
  | .getCWPower => Sys2Proof.Machine.execGetCWPower s
  | .setCRResistance x => Sys2Proof.Machine.execSetCRResistance x s
  | .getCRResistance => Sys2Proof.Machine.execGetCRResistance s
  | .setTransientCc mode a ta b tb style => Sys2Proof.Machine.execSetTransientCc mode a ta b tb style s
  | .getTransientCc mode => Sys2Proof.Machine.execGetTransientCc mode s
  | .setTransientCv mode a ta b tb style => Sys2Proof.Machine.execSetTransientCv mode a ta b tb style s
  | .getTransientCv mode => Sys2Proof.Machine.execGetTransientCv mode s
  | .setTransientCw mode a ta b tb style => Sys2Proof.Machine.execSetTransientCw mode a ta b tb style s
  | .getTransientCw mode => Sys2Proof.Machine.execGetTransientCw mode s
  | .setTransientCr mode a ta b tb style => Sys2Proof.Machine.execSetTransientCr mode a ta b tb style s
  | .getTransientCr mode => Sys2Proof.Machine.execGetTransientCr mode s
  | .setBatteryTestVoltage x => Sys2Proof.Machine.execSetBatteryTestVoltage x s
  | .getBatteryTestVoltage => Sys2Proof.Machine.execGetBatteryTestVoltage s
  | .setLoadOnTimer x => Sys2Proof.Machine.execSetLoadOnTimer x s
  | .getLoadOnTimer => Sys2Proof.Machine.execGetLoadOnTimer s
  | .setLoadOnTimerState enabled => Sys2Proof.Machine.execSetLoadOnTimerState enabled s
  | .getLoadOnTimerState => Sys2Proof.Machine.execGetLoadOnTimerState s
  | .setTriggerSource t => Sys2Proof.Machine.execSetTriggerSource t s
  | .getTriggerSource => Sys2Proof.Machine.execGetTriggerSource s
  | .triggerLoad => Sys2Proof.Machine.execTriggerLoad s
  | .saveSettings register => Sys2Proof.Machine.execSaveSettings register s
  | .recallSettings register => Sys2Proof.Machine.execRecallSettings register s
  | .setFunction t => Sys2Proof.Machine.execSetFunction t s
  | .getFunction => Sys2Proof.Machine.execGetFunction s
  | .getInputValues => Sys2Proof.Machine.execGetInputValues s
  | .getProductInformation => Sys2Proof.Machine.execGetProductInformation s
  | .statusReply device status => Sys2Proof.Machine.execStatusReply device status s
  | .openSession port baudRate addressByte => Sys2Proof.Machine.execOpenSession port baudRate addressByte s
  | .closeSession => Sys2Proof.Machine.execCloseSession s
  | .csum8 b => Sys2Proof.Machine.execCsum8 b s
  | .csumOk f => Sys2Proof.Machine.execCsumOk f s
  | .hdrDet f => Sys2Proof.Machine.execHdrDet f s
  | .encInt v n => Sys2Proof.Machine.execEncInt v n s
  | .decInt b => Sys2Proof.Machine.execDecInt b s
  | .encodeFrame opc addr p => Sys2Proof.Machine.execEncodeFrame opc addr p s
  | .decodeFrame raw => Sys2Proof.Machine.execDecodeFrame raw s
  | .statusMap x0 => Sys2Proof.Machine.execStatusMap x0 s
  | .lookup op => Sys2Proof.Machine.execLookup op s
  | .scale x0 x1 x2 => Sys2Proof.Machine.execScale x0 x1 x2 s
  | .unscale x0 x1 => Sys2Proof.Machine.execUnscale x0 x1 s
  | .build d data => Sys2Proof.Machine.execBuild d data s
  | .tpEnc => Sys2Proof.Machine.execTpEnc s
  | .tpDec payload => Sys2Proof.Machine.execTpDec payload s
  | .fwText hi lo => Sys2Proof.Machine.execFwText hi lo s
  | .transact frame => Sys2Proof.Machine.execTransact frame s

end Sys2Proof.Machine
end

