-- ==== Sys2Proof/Machine/Step.lean ====
section
/-! DEFINITION. The step: one turn of one agent, and where a program's next instruction is placed. -/

namespace Sys2Proof.Machine

/-- One step. The next turn is taken off `turns` and acted out: a command is fetched and executed (R151), the peer
supplies a byte (R35), the timer fires (R275), the transport's answer changes (R278), or the SFC takes its own step
(R274). With no turn left the SFC goes on by itself until it is stuck (R11, R279). -/
def step (s : State) : Host.Outcome State Fault Refusal :=
  match s.turns with
  | [] => sfcStep s (.fault (stuckReason s))
  | t :: rest =>
    let s1 := { s with turns := rest }
    match t with
    | .cmd c =>
      match fetch s.cfg c with
      | .ok i => exec i s1
      | .error e => .refused (.undecodable e)
    | .peer b => .next (supply [b] s1)
    | .timeout => .next (timeoutEvent s1)
    | .sfc => sfcStep s1 (.next s1)
    | .port isFree => .next { s1 with portFree := isFree }

/-- `s` with the request frame of a table word as the next command, and the session open and idle, which is all that the
SFC asks before it takes a host operation (R151 step 0, entry 17). -/
def State.withFetchWord (s : State) (nbits w : Nat) : State :=
  { s with turns := .cmd (.frame (tableBytes nbits w)) :: s.turns, sess := .opened, phase := .idle }

end Sys2Proof.Machine
end

