-- ==== Sys2Proof/Safety.lean ====
section
/-! DEFINITION. The terms the claims use: the invariant of the machine, when the SFC takes a host operation, the state an issued
operation leaves, and which instructions are host operations. -/

namespace Sys2Proof.Machine

/-- The invariant: the constraints on the parameters (R87, R89), a legal device address (R22), a transaction only inside
a session (R21, R23), whole buffers (R24, R25), the byte counter in range (R26), whole request frames on the link (R34),
and a latched descriptor that is the table's (R27). -/
structure State.Inv (s : State) : Prop where
  cfgOk : s.cfg.Ok
  addrLegal : s.addr ≠ addrForbidden
  rxSession : s.phase = .rx → s.sess = .opened
  txbufWhole : s.txbuf.length = frameLen
  rxbufWhole : s.rxbuf.length = frameLen
  rxcntRange : s.rxcnt ≤ frameLen
  txWhole : s.txstream.length % frameLen = 0
  latched : s.cur.desc = lookup s.cfg s.cur.op

/-- What the issue of a request relies on: the configuration's constraints and a legal device address. -/
def State.Sound (s : State) : Prop := s.cfg.Ok ∧ s.addr ≠ addrForbidden

/-- The SFC takes a host operation: SESS = OPEN and PHASE = IDLE (R151 step 0). -/
def State.Ready (s : State) : Prop := s.sess = .opened ∧ s.phase = .idle

/-- The next step is the SFC's own (R274): the next turn is the SFC's, or no turn is left and it goes on by itself (entry 2). -/
def State.SfcMoves (s : State) : Prop := s.turns = [] ∨ ∃ rest, s.turns = .sfc :: rest

/-- The next `n` steps are the SFC's own. -/
def State.SfcMovesFor (n : Nat) (s : State) : Prop := ∀ t ∈ s.turns.take n, t = .sfc

/-- An operand that `SCALE` raises InvalidParameter on (R146, R148): negative, or with OVERFLOW = fault too large. -/
def badQuantity (o : Overflow) (x : Rat) (s n : Nat) : Bool :=
  decide (x < 0) || (decide (o = .fault) && decide ((256 ^ n : Nat) ≤ roundRat (x * (s : Rat))))

/-- The request frame of an operation with its data bytes, for the session's device (R57, R150). -/
def State.requestOf (s : State) (op : OpName) (data : List Byte) : List Byte :=
  frameBytes (lookup s.cfg op).opcode s.addr data

/-- The state the issue step leaves (R151 steps 2 to 5): the descriptor latched, the frame in TXBUF and on the link,
RXCNT 0, PHASE RX, and nothing else changed. -/
def State.issued (s : State) (op : OpName) (data : List Byte) : State :=
  { s with
    cur := { op := op, desc := lookup s.cfg op }
    txbuf := s.requestOf op data
    txstream := s.txstream ++ s.requestOf op data
    rxcnt := 0
    phase := .rx
    rawTxn := false }

/-- A frame the SFC accepts and may send: 26 bytes, header, address, opcode and checksum right (R57, R80). -/
def wireFrame (recog : List Byte) (f : List Byte) : Prop :=
  f.length = frameLen ∧ f.getD 0 0 = header ∧ f.getD 1 0 ≠ addrForbidden ∧ f.getD 2 0 ∈ recog ∧ csumOk f = true

/-- The host operations that are issued as a request: the 41 request rows of spec/opcode_table.json. -/
def isRequest : Instr → Bool
  | .setRemoteControl _ | .setLoadState _ | .setMaxVoltage _ | .getMaxVoltage | .setMaxCurrent _ | .getMaxCurrent
  | .setMaxPower _ | .getMaxPower | .setMode _ | .getMode | .setCCCurrent _ | .getCCCurrent | .setCVVoltage _
  | .getCVVoltage | .setCWPower _ | .getCWPower | .setCRResistance _ | .getCRResistance
  | .setTransientCc _ _ _ _ _ _ | .getTransientCc _ | .setTransientCv _ _ _ _ _ _ | .getTransientCv _
  | .setTransientCw _ _ _ _ _ _ | .getTransientCw _ | .setTransientCr _ _ _ _ _ _ | .getTransientCr _
  | .setBatteryTestVoltage _ | .getBatteryTestVoltage | .setLoadOnTimer _ | .getLoadOnTimer
  | .setLoadOnTimerState _ | .getLoadOnTimerState | .setTriggerSource _ | .getTriggerSource | .triggerLoad
  | .saveSettings _ | .recallSettings _ | .setFunction _ | .getFunction | .getInputValues
  | .getProductInformation => true
  | .statusReply _ _ | .openSession _ _ _ | .closeSession | .csum8 _ | .csumOk _ | .hdrDet _ | .encInt _ _ | .decInt _
  | .encodeFrame _ _ _ | .decodeFrame _ | .statusMap _ | .lookup _ | .scale _ _ _ | .unscale _ _ | .build _ _ | .tpEnc
  | .tpDec _ | .fwText _ _ | .transact _ => false

/-- The table row of `setTransient` for a mode (R93). -/
def setTransientRow (m : Mode) (t : Text) (a ta b tb : Rat) (style : Text) : Instr :=
  match m with
  | .cc => .setTransientCc t a ta b tb style
  | .cv => .setTransientCv t a ta b tb style
  | .cw => .setTransientCw t a ta b tb style
  | .cr => .setTransientCr t a ta b tb style

/-- The table row of `getTransient` for a mode (R93). -/
def getTransientRow (m : Mode) (t : Text) : Instr :=
  match m with
  | .cc => .getTransientCc t
  | .cv => .getTransientCv t
  | .cw => .getTransientCw t
  | .cr => .getTransientCr t

/-- The quantity setters: instruction, operation, scale and width (R173 to R191). -/
def quantitySetters (c : Config) (x : Rat) : List (Instr × OpName × Nat × Nat) :=
  [(.setMaxVoltage x, .setMaxVoltage, 1000, 4), (.setMaxCurrent x, .setMaxCurrent, 10, 4),
   (.setMaxPower x, .setMaxPower, 1000, 4), (.setCCCurrent x, .setCCCurrent, 10, 4),
   (.setCVVoltage x, .setCVVoltage, 1000, 4), (.setCWPower x, .setCWPower, 1000, 4),
   (.setCRResistance x, .setCRResistance, c.scaleR, 4), (.setBatteryTestVoltage x, .setBatteryTestVoltage, 1000, 4),
   (.setLoadOnTimer x, .setLoadOnTimer, 1, 2)]

/-- The operations whose request carries no data, less the transient queries (R174 to R214, R252, R257). -/
def emptyRequests : List (Instr × OpName) :=
  [(.getMaxVoltage, .getMaxVoltage), (.getMaxCurrent, .getMaxCurrent), (.getMaxPower, .getMaxPower),
   (.getMode, .getMode), (.getCCCurrent, .getCCCurrent), (.getCVVoltage, .getCVVoltage), (.getCWPower, .getCWPower),
   (.getCRResistance, .getCRResistance), (.getBatteryTestVoltage, .getBatteryTestVoltage),
   (.getLoadOnTimer, .getLoadOnTimer), (.getLoadOnTimerState, .getLoadOnTimerState),
   (.getTriggerSource, .getTriggerSource), (.triggerLoad, .triggerLoad), (.getFunction, .getFunction),
   (.getInputValues, .getInputValues), (.getProductInformation, .getProductInformation)]

/-- A text that no member of an enumeration has, even when letter case is ignored (R86 (b)). -/
def unrecognised {α : Type} (text : α → Text) (t : Text) : Prop := ∀ m, lowerText t ≠ text m

/-- A text that differs from a member's canonical string in letter case only (R86 (c)). -/
def caseVariant {α : Type} (text : α → Text) (m : α) (t : Text) : Prop := lowerText t = text m ∧ t ≠ text m

/-- A result that is a local error (R290, R291). -/
def isLocalError : Result → Bool
  | .error e => errClass e == .localCheck
  | .outcome _ | .value _ | .done => false

end Sys2Proof.Machine
end

