-- ==== Sys2Proof/Certificates/Slice0/Obligations.lean ====
section
/-! DEFINITION. The statements for the provers. Basis, citations and quotes stand in OBLIGATIONS.json. Where a statement rests on
the model's own choice, its docstring names the log entry. -/

open Sys2Proof Sys2Proof.Machine

/-! ### Encoding -/

/-- Words written out from R80, R81 and the examples of 42, 43 and 44 decode to the operations they stand for. -/
def Obligations.FrameWordsDecodeToTheirOperations : Prop :=
  let frame (l : List Byte) (k : Byte) : List Byte := l ++ List.replicate (25 - l.length) 0 ++ [k]
  decode defaultConfig (frame [0xAA, 0x00, 0x20, 0x01] 0xCB) = .ok (.setRemoteControl true) ∧
  decode defaultConfig (frame [0xAA, 0x00, 0x2A, 0x50, 0xC3] 0xE7) = .ok (.setCCCurrent 5000) ∧
  decode defaultConfig (frame [0xAA, 0x00, 0x28, 0x01] 0xD3) = .ok (.setMode ['c', 'v']) ∧
  decode defaultConfig (frame [0xAA, 0x05, 0x27] 0xD6) = .ok .getMaxPower ∧
  decode defaultConfig (frame [0xAA, 0x00, 0x50, 0x58, 0x02] 0x54) = .ok (.setLoadOnTimer 600) ∧
  decode defaultConfig (frame [0xAA, 0x00, 0x5B, 0x19] 0x1E) = .ok (.saveSettings 25) ∧
  decode defaultConfig (frame [0xAA, 0x00, 0x39] 0xE3) = .ok (.getTransientCr ['c', 'r']) ∧
  decode defaultConfig
    (frame [0xAA, 0x00, 0x32, 0x10, 0x27, 0, 0, 0xF4, 0x01, 0x20, 0x4E, 0, 0, 0xFA, 0x00, 0x01] 0x71) =
      .ok (.setTransientCc ['c', 'c'] 1000 (1 / 2) 2000 (1 / 4) ['p', 'u', 'l', 's', 'e']) ∧
  decode defaultConfig (frame [0xAA, 0x00, 0x5F] 0x09) = .ok .getInputValues ∧
  decode defaultConfig (frame [0xAA, 0x00, 0x12, 0x80] 0x3C) = .ok (.statusReply 0x00 0x80)

/-- Decode and encode agree: every instruction that a frame carries exactly, with every operand at every value the
encoding admits, for every device address and every configuration that R87 and R89 admit. -/
def Obligations.DecodeOfEncodeIsTheInstruction : Prop :=
  ∀ (c : Config) (addr : Byte) (i : Instr), c.Ok → i.framed c = true →
    ∃ f, encode c addr i = some f ∧ f.length = frameLen ∧ decode c f = .ok i

/-- The operation is selected by bytes 0 and 2 alone (R93); the address and the checksum of a request are no operand. -/
def Obligations.AddressAndChecksumSelectNothing : Prop :=
  ∀ (c : Config) (f : List Byte) (a k : Byte), f.length = frameLen → f.getD 2 0 ≠ statusMark →
    decode c ((f.set 1 a).set 25 k) = decode c f

/-- A frame whose opcode no operation has is rejected by name (R88: the unused values of the range among them). -/
def Obligations.UnassignedOpcodesAreRejected : Prop :=
  ∀ (c : Config) (f : List Byte), f.length = frameLen → f.getD 0 0 = header → f.getD 2 0 ≠ statusMark →
    (∀ p ∈ c.opc, p.2 ≠ f.getD 2 0) → decode c f = .error (.noOperation (f.getD 2 0))

/-- The encoder's frame is what the operation sends, and an operand without a wire form sends nothing (R82, R151). -/
def Obligations.EncodeIsWhatTheOperationSends : Prop :=
  ∀ (i : Instr) (s : State), isRequest i = true → s.Sound → s.Ready →
    (∀ f, encode s.cfg s.addr i = some f →
      ∃ t, exec i s = .next t ∧ t.phase = .rx ∧ t.txbuf = f ∧ t.txstream = s.txstream ++ f) ∧
    (encode s.cfg s.addr i = none →
      ∃ t, exec i s = .next t ∧ t.phase = .idle ∧ t.txstream = s.txstream ∧ t.rxstream = s.rxstream)

/-! ### The codec -/

/-- The laws of the integer codec (R117). -/
def Obligations.IntegerCodecRoundTrip : Prop :=
  (∀ (o : Overflow) (n v : Nat), n = 1 ∨ n = 2 ∨ n = 4 → v < 256 ^ n →
    ∃ b, encInt o v n = .ok b ∧ b.length = n ∧ decInt b = v) ∧
  (∀ (o : Overflow) (n : Nat) (b : List Byte), n = 1 ∨ n = 2 ∨ n = 4 → b.length = n →
    encInt o (decInt b) n = .ok b) ∧
  (∀ (b : List Byte) (m : Nat), decInt (b ++ List.replicate m 0) = decInt b)

/-- The bytes `ENCINT` gives, byte `k` at offset `k`, and the values it raises on (R114, with OVERFLOW = fault). -/
def Obligations.EncIntGivesLittleEndianBytes : Prop :=
  (∀ (n : Nat) (v : Nat), v < 256 ^ n →
    ∃ b, encInt .fault v n = .ok b ∧ b.length = n ∧ ∀ k < n, (b.getD k 0).toNat = v / 256 ^ k % 256) ∧
  (∀ (n : Nat) (v : Int), v < 0 → encInt .fault v n = .error .invalidParameter) ∧
  (∀ (n : Nat) (v : Int), (256 ^ n : Nat) ≤ v → encInt .fault v n = .error .invalidParameter)

/-- The value of `DECINT`, for any length (R116). -/
def Obligations.DecIntIsTheLittleEndianSum : Prop :=
  ∀ b : List Byte, decInt b = ∑ k ∈ Finset.range b.length, (b.getD k 0).toNat * 256 ^ k

/-- The checksum is an 8-bit accumulator from 0 with the carry discarded (R111). -/
def Obligations.ChecksumIsAnAccumulator : Prop :=
  ∀ b : List Byte, (csum8 b).toNat = (b.map BitVec.toNat).sum % 256 ∧ csum8 b = b.foldl (· + ·) 0

/-- The checksum finds every change of a single byte, and no reordering of bytes 0..24 (R112). -/
def Obligations.ChecksumFindsSingleByteChanges : Prop :=
  (∀ (f : List Byte) (k : Nat) (x : Byte), f.length = frameLen → csumOk f = true → k < frameLen → x ≠ f.getD k 0 →
    csumOk (f.set k x) = false) ∧
  (∀ f g : List Byte, f.length = frameLen → g.length = frameLen → (f.take 25).Perm (g.take 25) →
    f.getD 25 0 = g.getD 25 0 → csumOk g = csumOk f)

/-- Byte by byte, the frame `ENCODE` builds; its one error; its preconditions (R118, R119). -/
def Obligations.EncodeFrameFillsTheFrameMap : Prop :=
  ∀ (recog : List Byte) (opc addr : Byte) (p : List Byte),
    (addr = 0xFF ∨ opc ∉ recog → encodeFrame recog opc addr p = .outside) ∧
    (addr ≠ 0xFF → opc ∈ recog → 22 < p.length → encodeFrame recog opc addr p = .error .invalidPayload) ∧
    (addr ≠ 0xFF → opc ∈ recog → p.length ≤ 22 →
      ∃ f, encodeFrame recog opc addr p = .frame f ∧ f.length = 26 ∧ f.getD 0 0 = 0xAA ∧ f.getD 1 0 = addr ∧
        f.getD 2 0 = opc ∧ (∀ k < p.length, f.getD (3 + k) 0 = p.getD k 0) ∧
        (∀ k, p.length ≤ k → k < 22 → f.getD (3 + k) 0 = 0) ∧ f.getD 25 0 = csum8 (f.take 25))

/-- The five checks of `DECODE`, in their order (R120). -/
def Obligations.DecodeReportsTheFirstFailedCheck : Prop :=
  ∀ (recog raw : List Byte), decodeFrame recog raw =
    if raw.length ≠ 26 then .error (.malformedFrame .length)
    else if raw.getD 0 0 ≠ 0xAA then .error (.malformedFrame .header)
    else if raw.getD 1 0 = 0xFF then .error (.malformedFrame .address)
    else if raw.getD 2 0 ∉ recog then .error (.malformedFrame .opcode)
    else if csum8 (raw.take 25) ≠ raw.getD 25 0 then .error (.malformedFrame .checksum)
    else .ok { echo := raw.getD 2 0, status := raw.getD 3 0, payload := (raw.drop 3).take 22 }

/-- The round trip of the frame codec, both ways (R123). -/
def Obligations.FrameCodecRoundTrip : Prop :=
  (∀ (recog : List Byte) (opc addr : Byte) (p : List Byte), opc ∈ recog → addr ≠ 0xFF → p.length ≤ 22 →
    ∃ f q, encodeFrame recog opc addr p = .frame f ∧ decodeFrame recog f = .ok q ∧ q.echo = opc ∧
      q.payload = p ++ List.replicate (22 - p.length) 0) ∧
  (∀ (recog raw : List Byte) (q : ParsedFrame), decodeFrame recog raw = .ok q →
    encodeFrame recog (raw.getD 2 0) (raw.getD 1 0) ((raw.drop 3).take 22) = .frame raw)

/-- The status map on every byte (R124). -/
def Obligations.StatusMapNamesFiveBytes : Prop :=
  statusMap 0x80 = .success ∧ statusMap 0x90 = .wrongChecksum ∧ statusMap 0xA0 = .invalidParameterValue ∧
  statusMap 0xB0 = .commandNotExecutable ∧ statusMap 0xC0 = .invalidCommand ∧
  ∀ b : Byte, b ∉ ([0x80, 0x90, 0xA0, 0xB0, 0xC0] : List Byte) → statusMap b = .unknownStatus b

/-! ### Scaling and the table -/

/-- `ROUND` fixes integers and stays within one half (R147 (a), (b)), whatever the tie rule is. -/
def Obligations.RoundIsNearest : Prop :=
  (∀ k : Int, roundRat (k : Rat) = k) ∧ ∀ q : Rat, |(roundRat q : Rat) - q| ≤ 1 / 2

/-- `UNSCALE(w, s)` is the exact quotient, and `UNSCALE(SCALE(x, s, n), s) = x` exactly when `x * s` is an integer (R149). -/
def Obligations.UnscaleUndoesScale : Prop :=
  (∀ w s : Nat, 0 < s → unscale w s = (w : Rat) / (s : Rat)) ∧
  ∀ (x : Rat) (s n w : Nat), 0 < s → scaleValue .fault x s n = .ok w →
    (unscale w s = x ↔ ∃ k : Int, x * (s : Rat) = k)

/-- No two operations have one opcode, and every opcode lies in the range, is recognised, and is not the status marker
(R87, R89). -/
def Obligations.OpcodesAreDistinctAndRecognised : Prop :=
  ∀ c : Config, c.Ok →
    (∀ op op' : OpName, (lookup c op).opcode = (lookup c op').opcode → op = op') ∧
    ∀ op : OpName, 0x20 ≤ (lookup c op).opcode.toNat ∧ (lookup c op).opcode.toNat ≤ 0x6C ∧
      (lookup c op).opcode ∈ c.recog ∧ (lookup c op).opcode ≠ 0x12

/-- The command descriptor table, row by row (R141 to R144): width, scale, direction, kind and layout of every operation under
every configuration, the transient rows by mode, and the opcodes of the default OPC, which but for 0x2A are entry 3's. That the
one scale of getInputValues is 1000 is entry 15's choice. -/
def Obligations.LookupGivesTheTable : Prop :=
  (∀ (c : Config) (op : OpName),
    let row := ((lookup c op).width, (lookup c op).scale, (lookup c op).dir, (lookup c op).kind, (lookup c op).layout)
    row = match op with
      | .setRemoteControl | .setLoadState | .setLoadOnTimerState => (1, 1, .set, .flag, .single)
      | .getLoadOnTimerState => (1, 1, .query, .flag, .single)
      | .setMaxVoltage | .setMaxPower | .setCVVoltage | .setCWPower | .setBatteryTestVoltage =>
        (4, 1000, .set, .quantity, .single)
      | .getMaxVoltage | .getMaxPower | .getCVVoltage | .getCWPower | .getBatteryTestVoltage =>
        (4, 1000, .query, .quantity, .single)
      | .setMaxCurrent | .setCCCurrent => (4, 10, .set, .quantity, .single)
      | .getMaxCurrent | .getCCCurrent => (4, 10, .query, .quantity, .single)
      | .setCRResistance => (4, c.scaleR, .set, .quantity, .single)
      | .getCRResistance => (4, c.scaleR, .query, .quantity, .single)
      | .setMode => (1, 1, .set, .enum .mode, .single)
      | .getMode => (1, 1, .query, .enum .mode, .single)
      | .setTriggerSource => (1, 1, .set, .enum .trigger, .single)
      | .getTriggerSource => (1, 1, .query, .enum .trigger, .single)
      | .setFunction => (1, 1, .set, .enum .function, .single)
      | .getFunction => (1, 1, .query, .enum .function, .single)
      | .setTransient .cc => (4, 10, .set, .composite, .tp)
      | .setTransient .cv | .setTransient .cw => (4, 1000, .set, .composite, .tp)
      | .setTransient .cr => (4, c.scaleR, .set, .composite, .tp)
      | .getTransient .cc => (4, 10, .query, .composite, .tp)
      | .getTransient .cv | .getTransient .cw => (4, 1000, .query, .composite, .tp)
      | .getTransient .cr => (4, c.scaleR, .query, .composite, .tp)
      | .setLoadOnTimer => (2, 1, .set, .integer, .single)
      | .getLoadOnTimer => (2, 1, .query, .integer, .single)
      | .triggerLoad => (0, 1, .set, .none, .single)
      | .saveSettings | .recallSettings => (1, 1, .set, .integer, .single)
      | .getInputValues => (4, 1000, .query, .composite, .iv)
      | .getProductInformation => (0, 1, .query, .composite, .pi)) ∧
  defaultConfig.scaleR = 1000 ∧
  ∀ op : OpName, (lookup defaultConfig op).opcode =
    match op with
    | .setRemoteControl => 0x20 | .setLoadState => 0x21 | .setMaxVoltage => 0x22 | .getMaxVoltage => 0x23
    | .setMaxCurrent => 0x24 | .getMaxCurrent => 0x25 | .setMaxPower => 0x26 | .getMaxPower => 0x27
    | .setMode => 0x28 | .getMode => 0x29 | .setCCCurrent => 0x2A | .getCCCurrent => 0x2B
    | .setCVVoltage => 0x2C | .getCVVoltage => 0x2D | .setCWPower => 0x2E | .getCWPower => 0x2F
    | .setCRResistance => 0x30 | .getCRResistance => 0x31
    | .setTransient .cc => 0x32 | .getTransient .cc => 0x33 | .setTransient .cv => 0x34 | .getTransient .cv => 0x35
    | .setTransient .cw => 0x36 | .getTransient .cw => 0x37 | .setTransient .cr => 0x38 | .getTransient .cr => 0x39
    | .setBatteryTestVoltage => 0x4E | .getBatteryTestVoltage => 0x4F | .setLoadOnTimer => 0x50
    | .getLoadOnTimer => 0x51 | .setLoadOnTimerState => 0x52 | .getLoadOnTimerState => 0x53
    | .setTriggerSource => 0x58 | .getTriggerSource => 0x59 | .triggerLoad => 0x5A | .saveSettings => 0x5B
    | .recallSettings => 0x5C | .setFunction => 0x5D | .getFunction => 0x5E | .getInputValues => 0x5F
    | .getProductInformation => 0x6A

/-- `TPENC()` under the default layout: the thirteen bytes in the order of R233. -/
def Obligations.ProfileEncodesToThirteenBytes : Prop :=
  ∀ s : State, s.cfg.tp = defaultTP →
    tpEncode s = leBytes 4 s.tpA.toNat ++ leBytes 2 s.tpTA.toNat ++ leBytes 4 s.tpB.toNat ++ leBytes 2 s.tpTB.toNat ++
      leBytes 1 s.tpStyle.toNat ∧ (tpEncode s).length = 13

/-- `TPDEC` of the bytes `TPENC` gave, with or without more bytes behind them, restores the five registers, under every layout
whose fields do not overlap; `TPENC` after `TPDEC` of 13 bytes or more gives back bytes 0..12, under the default layout (R234). -/
def Obligations.ProfileCodecRoundTrip : Prop :=
  (∀ (s u : State) (rest : List Byte), s.cfg.Ok → u.cfg = s.cfg →
    exec (.tpDec (tpEncode s ++ rest)) u = .next { u with
      ret := .nothing, tpA := s.tpA, tpTA := s.tpTA, tpB := s.tpB, tpTB := s.tpTB, tpStyle := s.tpStyle }) ∧
  (∀ (s : State) (p : List Byte), s.cfg.tp = defaultTP → 13 ≤ p.length →
    ∃ t, exec (.tpDec p) s = .next t ∧ tpEncode t = p.take 13)

/-! ### Issuing operations: what each leaves, in every field -/

/-- The flag operations send one byte, 1 for true and 0 for false (R171, R172, R193). -/
def Obligations.FlagSettersIssueOneByte : Prop :=
  ∀ (b : Bool) (s : State), s.Sound → s.Ready →
    let data : List Byte := [if b then 0x01 else 0x00]
    exec (.setRemoteControl b) s = .next (s.issued .setRemoteControl data) ∧
    exec (.setLoadState b) s = .next (s.issued .setLoadState data) ∧
    exec (.setLoadOnTimerState b) s = .next (s.issued .setLoadOnTimerState data)

/-- Every query but the transient ones, and triggerLoad, sends a request with 22 zero payload bytes (R174 to R214, R252,
R257). -/
def Obligations.EmptyRequestsIssue : Prop :=
  ∀ s : State, s.Sound → s.Ready → ∀ p ∈ emptyRequests, exec p.1 s = .next (s.issued p.2 [])

/-- The quantity setters (setMaxVoltage, setMaxCurrent, setMaxPower, setCCCurrent, setCVVoltage, setCWPower,
setCRResistance, setBatteryTestVoltage, setLoadOnTimer) latch the wire integer in OPR and send it (R146, R173 to R191),
whatever OVERFLOW and the tie rule are. -/
def Obligations.QuantitySettersIssueTheScaledInteger : Prop :=
  ∀ (x : Rat) (s : State), s.Sound → s.Ready → 0 ≤ x →
    ∀ p ∈ quantitySetters s.cfg x, roundRat (x * (p.2.2.1 : Rat)) < (256 ^ p.2.2.2 : Nat) →
      let w := (roundRat (x * (p.2.2.1 : Rat))).toNat
      exec p.1 s = .next (State.issued { s with opr := BitVec.ofNat 32 w } p.2.1 (leBytes p.2.2.2 w))

/-- A negative quantity, and with OVERFLOW = fault one that does not fit, ends the operation with InvalidParameter and
touches nothing else (R146, R148, R115). -/
def Obligations.QuantitySettersRejectBadOperands : Prop :=
  ∀ (x : Rat) (s : State), s.Ready → ∀ p ∈ quantitySetters s.cfg x,
    (x < 0 ∨ s.cfg.overflow = .fault ∧ (256 ^ p.2.2.2 : Nat) ≤ roundRat (x * (p.2.2.1 : Rat))) →
      exec p.1 s = .next { s with res := .error .invalidParameter, phase := .idle }

/-- With OVERFLOW = truncate a quantity that does not fit is sent as its low bytes (R115). OPR then holds those low bytes'
value, which is the model's choice (entry 6). -/
def Obligations.TruncatingSettersSendTheLowBytes : Prop :=
  ∀ (x : Rat) (s : State), s.Sound → s.Ready → 0 ≤ x → s.cfg.overflow = .truncate →
    ∀ p ∈ quantitySetters s.cfg x, (256 ^ p.2.2.2 : Nat) ≤ roundRat (x * (p.2.2.1 : Rat)) →
      let w := (roundRat (x * (p.2.2.1 : Rat))).toNat
      exec p.1 s =
        .next (State.issued { s with opr := BitVec.ofNat 32 (w % 256 ^ p.2.2.2) } p.2.1 (leBytes p.2.2.2 w))

/-- The strings and codes of the four enumerations (R85), and the enumeration setters: each sends the code of the member that the
canonical string names (R86 (a), R179, R195, R213). -/
def Obligations.EnumSettersIssueTheCode : Prop :=
  (∀ m : Mode, (modeText m, modeCode m) =
    match m with | .cc => ("cc".toList, 0) | .cv => ("cv".toList, 1) | .cw => ("cw".toList, 2) | .cr => ("cr".toList, 3)) ∧
  (∀ m : TriggerSource, (triggerText m, triggerCode m) =
    match m with
    | .immediate => ("immediate".toList, 0) | .external => ("external".toList, 1) | .bus => ("bus".toList, 2)) ∧
  (∀ m : LoadFunction, (functionText m, functionCode m) =
    match m with
    | .fixed => ("fixed".toList, 0) | .short => ("short".toList, 1) | .transient => ("transient".toList, 2)
    | .battery => ("battery".toList, 4)) ∧
  (∀ m : Style, (styleText m, styleCode m) =
    match m with
    | .continuous => ("continuous".toList, 0) | .pulse => ("pulse".toList, 1) | .toggled => ("toggled".toList, 2)) ∧
  ∀ s : State, s.Sound → s.Ready →
    (∀ m, exec (.setMode (modeText m)) s = .next (s.issued .setMode [modeCode m])) ∧
    (∀ m, exec (.setTriggerSource (triggerText m)) s = .next (s.issued .setTriggerSource [triggerCode m])) ∧
    (∀ m, exec (.setFunction (functionText m)) s = .next (s.issued .setFunction [functionCode m]))

/-- A string that differs in letter case only: accepted if CASEFOLD, else unrecognised (R86 (c)), for either value. In a
transient operation it does what the canonical string does, or what any unrecognised string does. Letter case is that of the
ASCII letters (entry 5: DEDUCED). -/
def Obligations.CaseVariantsGoByCaseFold : Prop :=
  ∀ (s : State) (t : Text), s.Sound → s.Ready →
    (∀ m, caseVariant modeText m t →
      (exec (.setMode t) s =
        if s.cfg.caseFold then .next (s.issued .setMode [modeCode m]) else .next (raise .unknownMode s)) ∧
      (∀ a ta b tb st, exec (setTransientRow m t a ta b tb st) s =
        if s.cfg.caseFold then exec (setTransientRow m (modeText m) a ta b tb st) s
        else .next (raise .unknownMode s)) ∧
      exec (getTransientRow m t) s =
        if s.cfg.caseFold then exec (getTransientRow m (modeText m)) s else .next (raise .unknownMode s)) ∧
    (∀ m, caseVariant triggerText m t → exec (.setTriggerSource t) s =
      if s.cfg.caseFold then .next (s.issued .setTriggerSource [triggerCode m])
      else .next (raise .invalidParameter s)) ∧
    (∀ m, caseVariant functionText m t → exec (.setFunction t) s =
      if s.cfg.caseFold then .next (s.issued .setFunction [functionCode m]) else .next (raise .unknownFunction s)) ∧
    (∀ st m a ta b tb u, caseVariant styleText st t → unrecognised styleText u →
      exec (setTransientRow m (modeText m) a ta b tb t) s =
        exec (setTransientRow m (modeText m) a ta b tb (if s.cfg.caseFold then styleText st else u)) s)

/-- An unrecognised string ends the operation with the error of its enumeration and sends nothing (R86 (b), R179, R195,
R213, R235, R237). Which strings R86 (b) means rests on the model's reading of letter case as that of the ASCII letters
(`lowerText`, entry 5: DEDUCED, unsafe for a string with a letter outside ASCII that folds to an ASCII one). -/
def Obligations.UnrecognisedStringsSendNothing : Prop :=
  ∀ (s : State) (t : Text), s.Ready →
    (unrecognised modeText t → exec (.setMode t) s = .next { s with res := .error .unknownMode, phase := .idle } ∧
      ∀ m a ta b tb st,
        exec (setTransientRow m t a ta b tb st) s = .next { s with res := .error .unknownMode, phase := .idle } ∧
        exec (getTransientRow m t) s = .next { s with res := .error .unknownMode, phase := .idle }) ∧
    (unrecognised functionText t →
      exec (.setFunction t) s = .next { s with res := .error .unknownFunction, phase := .idle }) ∧
    (unrecognised triggerText t →
      exec (.setTriggerSource t) s = .next { s with res := .error .invalidParameter, phase := .idle })

/-- The register slots: 1..25 go to the wire as one byte, every other index is OutOfRange and sends nothing (R211, R212,
R60). -/
def Obligations.RegisterIndexIsChecked : Prop :=
  ∀ (r : Int) (s : State), s.Sound → s.Ready →
    if 1 ≤ r ∧ r ≤ 25 then
      exec (.saveSettings r) s = .next (s.issued .saveSettings [BitVec.ofInt 8 r]) ∧
      exec (.recallSettings r) s = .next (s.issued .recallSettings [BitVec.ofInt 8 r])
    else
      exec (.saveSettings r) s = .next { s with res := .error .outOfRange, phase := .idle } ∧
      exec (.recallSettings r) s = .next { s with res := .error .outOfRange, phase := .idle }

/-- `setTransient` of a profile whose fields fit, or are cut to their low bytes under OVERFLOW = truncate (R115, entry 6): the
six staging registers, OPR, and the request of the mode's opcode (R235), in each of the four table rows. -/
def Obligations.SetTransientIssuesTheProfile : Prop :=
  ∀ (s : State) (m : Mode) (st : Style) (a ta b tb : Rat), s.Sound → s.Ready → 0 ≤ a → 0 ≤ ta → 0 ≤ b → 0 ≤ tb →
    let sp := (lookup s.cfg (.setTransient m)).scale
    s.cfg.overflow = .truncate ∨
        roundRat (a * (sp : Rat)) < 2 ^ 32 ∧ roundRat (ta * 1000) < 2 ^ 16 ∧ roundRat (b * (sp : Rat)) < 2 ^ 32 ∧
          roundRat (tb * 1000) < 2 ^ 16 →
      let wa := (roundRat (a * (sp : Rat))).toNat % 2 ^ 32
      let wta := (roundRat (ta * 1000)).toNat % 2 ^ 16
      let wb := (roundRat (b * (sp : Rat))).toNat % 2 ^ 32
      let wtb := (roundRat (tb * 1000)).toNat % 2 ^ 16
      exec (setTransientRow m (modeText m) a ta b tb (styleText st)) s =
        .next (State.issued
          { s with
            opr := BitVec.ofNat 32 wtb
            tpMode := (modeCode m).setWidth 2
            tpA := BitVec.ofNat 32 wa
            tpTA := BitVec.ofNat 16 wta
            tpB := BitVec.ofNat 32 wb
            tpTB := BitVec.ofNat 16 wtb
            tpStyle := styleCode st }
          (.setTransient m) (tpPack s.cfg.tp wa wta wb wtb (styleCode st).toNat))

/-- One bad argument of `setTransient` after a good mode ends it with InvalidParameter; nothing is touched besides but OPR, which
holds the last argument converted: none before a bad A, A before a bad A-duration, and so on to the B-duration before a bad
style (R146, R235, R305). Which style strings are unrecognised takes letter case as that of ASCII letters (entry 5); what OPR
holds of an argument cut under OVERFLOW = truncate is entry 6. -/
def Obligations.SetTransientRejectsBadArguments : Prop :=
  ∀ (s : State) (m : Mode) (a ta b tb : Rat) (st : Text), s.Ready →
    let sp := (lookup s.cfg (.setTransient m)).scale
    let low (x : Rat) (k n : Nat) : BitVec 32 := BitVec.ofNat 32 ((roundRat (x * (k : Rat))).toNat % 256 ^ n)
    let ended (o : BitVec 32) : State := { s with opr := o, res := .error .invalidParameter, phase := .idle }
    let out := exec (setTransientRow m (modeText m) a ta b tb st) s
    if badQuantity s.cfg.overflow a sp 4 then out = .next (ended s.opr)
    else if badQuantity s.cfg.overflow ta 1000 2 then out = .next (ended (low a sp 4))
    else if badQuantity s.cfg.overflow b sp 4 then out = .next (ended (low ta 1000 2))
    else if badQuantity s.cfg.overflow tb 1000 2 then out = .next (ended (low b sp 4))
    else unrecognised styleText st → out = .next (ended (low tb 1000 2))

/-- `getTransient` writes TP_MODE and sends an empty request of the mode's opcode (R237 steps 1 to 3), in each of the four
table rows. -/
def Obligations.GetTransientIssuesTheQuery : Prop :=
  ∀ (s : State) (m : Mode), s.Sound → s.Ready →
    exec (getTransientRow m (modeText m)) s =
      .next (State.issued { s with tpMode := (modeCode m).setWidth 2 } (.getTransient m) [])

/-! ### The session -/

/-- `open` (R271): refused while open and with address 0xFF; otherwise Done or TransportOpenError by the transport's answer,
and nothing but SESS, ADDR, PHASE, RXCNT and RES is written. -/
def Obligations.OpenClaimsThePort : Prop :=
  ∀ (port : Text) (baud : Nat) (a : Byte) (s : State), s.phase = .idle →
    (s.sess = .opened → exec (.openSession port baud a) s = .refused .alreadyOpen) ∧
    (s.sess = .closed → a = 0xFF → exec (.openSession port baud a) s = .refused .forbiddenAddress) ∧
    (s.sess = .closed → a ≠ 0xFF → s.portFree = true → exec (.openSession port baud a) s =
      .next { s with addr := a, sess := .opened, phase := .idle, rxcnt := 0, res := .done }) ∧
    (s.sess = .closed → a ≠ 0xFF → s.portFree = false → exec (.openSession port baud a) s =
      .next { s with res := .error .transportOpenError, phase := .idle })

/-- `close` (R276): it closes the session, keeps everything else, and is idempotent. -/
def Obligations.CloseIsIdempotent : Prop :=
  ∀ s : State, s.phase = .idle →
    exec .closeSession s = .next { s with sess := .closed, res := .done } ∧
    exec .closeSession { s with sess := .closed, res := .done } = .next { s with sess := .closed, res := .done }

/-- With no session every host operation but `open` and `close` is refused (R21), and TRANSACT too (entry 10). -/
def Obligations.NoSessionNoOperation : Prop :=
  ∀ (i : Instr) (s : State), isRequest i = true ∨ (∃ f, i = .transact f) → s.sess = .closed →
    exec i s = .refused .noSession

/-- While a transaction is in flight every host operation is refused (R23), and TRANSACT too (entry 10). -/
def Obligations.OverlapIsRefused : Prop :=
  ∀ (i : Instr) (s : State),
    isRequest i = true ∨ (∃ p b a, i = .openSession p b a) ∨ i = .closeSession ∨
      (∃ f, i = .transact f) →
    s.sess = .opened → s.phase = .rx → exec i s = .refused .overlap

/-- A request either fails locally and touches neither stream, or appends exactly one valid frame to its device and consumes
nothing (R62 (d), R151, R291). -/
def Obligations.RequestsSendOneValidFrameOrNothing : Prop :=
  ∀ (i : Instr) (s t : State), isRequest i = true → s.Sound → exec i s = .next t →
    (t.phase = .idle ∧ isLocalError t.res = true ∧ t.txstream = s.txstream ∧ t.rxstream = s.rxstream) ∨
    (t.phase = .rx ∧ t.rxcnt = 0 ∧ t.rxstream = s.rxstream ∧ wireFrame s.cfg.recog t.txbuf ∧
      t.txbuf.getD 1 0 = s.addr ∧ t.txstream = s.txstream ++ t.txbuf)

/-! ### Primitives used on their own -/

/-- The codec primitives answer in `ret` (entry 9) and write no register (40_codec_primitives.md), in every PHASE and with no
session (entries 9, 24). -/
def Obligations.CodecPrimitivesAnswer : Prop :=
  ∀ s : State,
    (∀ b, exec (.csum8 b) s = .next { s with ret := .byte (csum8 b.toList) }) ∧
    (∀ f, exec (.csumOk f) s = .next { s with ret := .bool (csum8 (f.toList.take 25) == f.toList.getD 25 0) }) ∧
    (∀ f, exec (.hdrDet f) s = .next { s with ret := .bool (f.val.getD 0 0 == 0xAA) }) ∧
    (∀ (w : IntWidth) (n : Nat), n = (match w with | .one => 1 | .two => 2 | .four => 4) →
      (∀ v, v < 256 ^ n → exec (.encInt (v : Nat) w) s = .next { s with ret := .bytes (leBytes n v) }) ∧
      (∀ v, v < 0 → exec (.encInt v w) s = .next { s with ret := .error .invalidParameter }) ∧
      (∀ v : Nat, 256 ^ n ≤ v → exec (.encInt v w) s =
        if s.cfg.overflow = .fault then .next { s with ret := .error .invalidParameter }
        else .next { s with ret := .bytes (leBytes n v) })) ∧
    (∀ b, exec (.decInt b) s = .next { s with ret := .nat (decInt b) }) ∧
    (∀ opc addr p, opc ∈ s.cfg.recog → addr ≠ 0xFF → p.length ≤ 22 →
      exec (.encodeFrame opc addr p) s = .next { s with ret := .bytes (frameBytes opc addr p) }) ∧
    (∀ opc addr p, opc ∈ s.cfg.recog → addr ≠ 0xFF → 22 < p.length →
      exec (.encodeFrame opc addr p) s = .next { s with ret := .error .invalidPayload }) ∧
    (∀ raw p, decodeFrame s.cfg.recog raw = .ok p → exec (.decodeFrame raw) s = .next { s with ret := .parsed p }) ∧
    (∀ raw e, decodeFrame s.cfg.recog raw = .error e → exec (.decodeFrame raw) s = .next { s with ret := .error e }) ∧
    (∀ b, exec (.statusMap b) s = .next { s with ret := .outcome (statusMap b) })

/-- The table, scaling and profile primitives: LOOKUP, UNSCALE, FWTEXT and TPENC write nothing but `ret` (entry 9); SCALE latches
OPR, for every scale and width (95_test_vectors.md 2.7; its low bytes under OVERFLOW = truncate are entry 6, a wire integer wider
than OPR is entry 22); TPDEC takes any bytes, reads each field they reach and writes five registers (what it reads beyond them is
entry 23). FWTEXT writes lower-case hexadecimal numerals without leading zeros (R143, R146, R149, R233, R234, R258). -/
def Obligations.OperandPrimitivesAnswer : Prop :=
  ∀ s : State,
    (∀ op, exec (.lookup op) s = .next { s with ret := .desc (lookup s.cfg op) }) ∧
    (∀ w (k : PNat), exec (.unscale w k) s = .next { s with ret := .rat ((w : Rat) / ((k : Nat) : Rat)) }) ∧
    (∀ hi lo : Byte, exec (.fwText hi lo) s =
      .next { s with ret := .text (Nat.toDigits 16 hi.toNat ++ '.' :: Nat.toDigits 16 lo.toNat) }) ∧
    exec .tpEnc s = .next { s with ret := .bytes (tpEncode s) } ∧
    (∀ (x : Rat) (k n : Nat), 0 ≤ x →
      let w := (roundRat (x * (k : Rat))).toNat
      (w < 256 ^ n → ∃ o, exec (.scale x k n) s = .next { s with ret := .nat w, opr := o } ∧
        (w < 2 ^ 32 → o = BitVec.ofNat 32 w)) ∧
      (256 ^ n ≤ w → s.cfg.overflow = .fault → exec (.scale x k n) s = .next { s with ret := .error .invalidParameter }) ∧
      (256 ^ n ≤ w → s.cfg.overflow = .truncate →
        ∃ o, exec (.scale x k n) s = .next { s with ret := .nat (w % 256 ^ n), opr := o } ∧
          (w % 256 ^ n < 2 ^ 32 → o = BitVec.ofNat 32 (w % 256 ^ n)))) ∧
    (∀ x k n, x < 0 → exec (.scale x k n) s = .next { s with ret := .error .invalidParameter }) ∧
    (∀ p : List Byte,
      let field (off n : Nat) : Nat := decInt ((p.drop off).take n)
      ∃ a ta b tb style, exec (.tpDec p) s = .next { s with
          ret := .nothing, tpA := a, tpTA := ta, tpB := b, tpTB := tb, tpStyle := style } ∧
        (s.cfg.tp.a + 4 ≤ p.length → a = BitVec.ofNat 32 (field s.cfg.tp.a 4)) ∧
        (s.cfg.tp.ta + 2 ≤ p.length → ta = BitVec.ofNat 16 (field s.cfg.tp.ta 2)) ∧
        (s.cfg.tp.b + 4 ≤ p.length → b = BitVec.ofNat 32 (field s.cfg.tp.b 4)) ∧
        (s.cfg.tp.tb + 2 ≤ p.length → tb = BitVec.ofNat 16 (field s.cfg.tp.tb 2)) ∧
        (s.cfg.tp.style + 1 ≤ p.length → style = p.getD s.cfg.tp.style 0))

/-- ENCODE and BUILD outside the preconditions of R119 are refused by name; a payload that BUILD cannot hold is InvalidPayload
(R118), answered in `ret` (entry 9). -/
def Obligations.OperandsOutsideTheRulesAreRefused : Prop :=
  ∀ s : State,
    (∀ opc addr p, addr = 0xFF ∨ opc ∉ s.cfg.recog →
      exec (.encodeFrame opc addr p) s = .refused .encodePrecondition) ∧
    (∀ d data, s.addr = 0xFF ∨ d.opcode ∉ s.cfg.recog → exec (.build d data) s = .refused .encodePrecondition) ∧
    (∀ d data, s.addr ≠ 0xFF → d.opcode ∈ s.cfg.recog → 22 < data.length →
      exec (.build d data) s = .next { s with ret := .error .invalidPayload })

/-- BUILD fills TXBUF with the frame for ADDR and sends nothing (R150); TRANSACT writes its 26 bytes and goes to RX (R273,
R277); a status frame of the device joins RXSTREAM (R35, R88, entry 11). -/
def Obligations.BuildTransactAndStatusFrame : Prop :=
  ∀ s : State,
    (∀ d data, d.opcode ∈ s.cfg.recog → s.addr ≠ 0xFF → data.length ≤ 22 →
      exec (.build d data) s = .next { s with txbuf := frameBytes d.opcode s.addr data, ret := .nothing }) ∧
    (∀ f, s.Ready → exec (.transact f) s = .next { s with
      txbuf := f.toList, txstream := s.txstream ++ f.toList, rxcnt := 0, phase := .rx, rawTxn := true }) ∧
    (∀ device status, exec (.statusReply device status) s =
      .next { s with rxstream := s.rxstream ++ frameBytes 0x12 device [status] })

/-! ### The sequencer -/

/-- A step runs the instruction on the command port: the decoded frame, or the operation given as a value; the turn is taken
off and nothing else is added (entries 2, 12). A frame that encodes no operation is refused; a turn of the transport only
sets its answer to the next open; an SFC turn passes in IDLE, and in RX with nothing to receive (R274). -/
def Obligations.StepRunsTheDecodedInstruction : Prop :=
  ∀ (s : State) (rest : List Turn),
    (∀ bs i, s.turns = .cmd (.frame bs) :: rest → decode s.cfg bs = .ok i → step s = exec i { s with turns := rest }) ∧
    (∀ bs e, s.turns = .cmd (.frame bs) :: rest → decode s.cfg bs = .error e → step s = .refused (.undecodable e)) ∧
    (∀ i, s.turns = .cmd (.call i) :: rest → step s = exec i { s with turns := rest }) ∧
    (∀ isFree, s.turns = .port isFree :: rest → step s = .next { s with turns := rest, portFree := isFree }) ∧
    (s.turns = .sfc :: rest → s.phase = .idle ∨ s.rxcnt < 26 ∧ s.rxstream = [] → step s = .next { s with turns := rest })

/-- The receive step: the oldest waiting byte goes to RXBUF[RXCNT], and the other 25 bytes stay (R274); on a turn of the SFC,
whatever turns follow, and with no turn left (entry 2). -/
def Obligations.ReceiveTakesTheOldestByte : Prop :=
  ∀ (s : State) (b : Byte) (rest : List Byte), s.SfcMoves → s.phase = .rx → s.rxcnt < 26 →
    s.rxbuf.length = 26 → s.rxstream = b :: rest →
    ∃ buf, step s = .next { s with turns := s.turns.tail, rxbuf := buf, rxcnt := s.rxcnt + 1, rxstream := rest } ∧
      buf.length = 26 ∧ buf.getD s.rxcnt 0 = b ∧ ∀ k, k ≠ s.rxcnt → buf.getD k 0 = s.rxbuf.getD k 0

/-- The timeout: it ends the operation in flight whatever waits in RXSTREAM, decodes nothing, and acts nowhere else (R275,
R300). The turn list is the model's own (entry 2). -/
def Obligations.TimeoutEndsTheOperation : Prop :=
  ∀ (s : State) (rest : List Turn), s.turns = .timeout :: rest →
    (s.phase = .rx → s.rxcnt < 26 → s.rawTxn = false →
      step s = .next { s with turns := rest, res := .error .transportTimeout, phase := .idle }) ∧
    (s.phase = .rx → s.rxcnt < 26 → s.rawTxn = true → step s = .next { s with
      turns := rest, res := .error .transportTimeout, phase := .idle, ret := .error .transportTimeout }) ∧
    (s.phase = .idle ∨ 26 ≤ s.rxcnt → step s = .next { s with turns := rest })

/-- The peer may supply a byte in any phase, and it only waits (R35, R36). -/
def Obligations.PeerBytesWaitInOrder : Prop :=
  ∀ (s : State) (b : Byte) (rest : List Turn), s.turns = .peer b :: rest →
    step s = .next { s with turns := rest, rxstream := s.rxstream ++ [b] }

/-- The set completion (R152, R154): the mapped status of the reply, or the error of its first failed check. The
completion as a step of its own is entry 14, the turns are entry 2. -/
def Obligations.SetCompletionMapsTheStatus : Prop :=
  ∀ s : State, s.SfcMoves → s.phase = .rx → s.rxcnt = 26 → s.rawTxn = false → s.cur.desc.dir = .set →
    (∀ p, decodeFrame s.cfg.recog s.rxbuf = .ok p → step s = .next { s with
      turns := s.turns.tail, res := .outcome (statusMap (s.rxbuf.getD 3 0)), phase := .idle }) ∧
    (∀ e, decodeFrame s.cfg.recog s.rxbuf = .error e →
      step s = .next { s with turns := s.turns.tail, res := .error e, phase := .idle })

/-- The get completion of a single field, by kind (R153): a quantity or integer unscaled, a flag, a member's canonical
string, or UnmappedCode; a malformed reply is its error (R154). -/
def Obligations.GetCompletionDecodesTheField : Prop :=
  ∀ s : State, s.SfcMoves → s.phase = .rx → s.rxcnt = 26 → s.rawTxn = false → s.cur.desc.dir = .query →
    s.cur.desc.layout = .single →
    (∀ e, decodeFrame s.cfg.recog s.rxbuf = .error e →
      step s = .next { s with turns := s.turns.tail, res := .error e, phase := .idle }) ∧
    ∀ p, decodeFrame s.cfg.recog s.rxbuf = .ok p →
      let w := decInt (p.payload.take s.cur.desc.width)
      (s.cur.desc.kind = .quantity ∨ s.cur.desc.kind = .integer →
        step s = .next { s with
          turns := s.turns.tail, res := .value (.number ((w : Rat) / (s.cur.desc.scale : Rat))), phase := .idle }) ∧
      (s.cur.desc.kind = .flag → w < 256 →
        step s = .next { s with
          turns := s.turns.tail
          res := (if w = 0 then .value (.flag false) else if w = 1 then .value (.flag true)
            else .error (.unmappedCode (BitVec.ofNat 8 w)))
          phase := .idle }) ∧
      (∀ m, s.cur.desc.kind = .enum .mode → w = (modeCode m).toNat →
        step s = .next { s with turns := s.turns.tail, res := .value (.text (modeText m)), phase := .idle }) ∧
      (∀ m, s.cur.desc.kind = .enum .trigger → w = (triggerCode m).toNat →
        step s = .next { s with turns := s.turns.tail, res := .value (.text (triggerText m)), phase := .idle }) ∧
      (∀ m, s.cur.desc.kind = .enum .function → w = (functionCode m).toNat →
        step s = .next { s with turns := s.turns.tail, res := .value (.text (functionText m)), phase := .idle }) ∧
      (s.cur.desc.kind = .enum .mode ∧ 4 ≤ w ∨ s.cur.desc.kind = .enum .trigger ∧ 3 ≤ w ∨
          s.cur.desc.kind = .enum .function ∧ (w = 3 ∨ 5 ≤ w) → w < 256 →
        step s = .next { s with turns := s.turns.tail, res := .error (.unmappedCode (BitVec.ofNat 8 w)), phase := .idle })

/-- The composite completions (R154, R237 steps 4 to 7, R252, R257, R258), under every layout (the default layouts are entry
3's): a malformed reply is its error, and the transient registers stay as they were. -/
def Obligations.CompositeCompletionsReadTheirFields : Prop :=
  ∀ s : State, s.SfcMoves → s.phase = .rx → s.rxcnt = 26 → s.rawTxn = false → s.cur.desc.dir = .query →
    (∀ e, decodeFrame s.cfg.recog s.rxbuf = .error e →
      step s = .next { s with turns := s.turns.tail, res := .error e, phase := .idle }) ∧
    ∀ p, decodeFrame s.cfg.recog s.rxbuf = .ok p →
      let field (off n : Nat) : Nat := decInt ((p.payload.drop off).take n)
      let byte (off : Nat) : Byte := p.payload.getD off 0
      (s.cur.desc.layout = .iv → step s = .next { s with
        turns := s.turns.tail
        res := .value (.inputValues ((field s.cfg.iv.volts 4 : Rat) / 1000) ((field s.cfg.iv.milliamps 4 : Rat) / 10)
          ((field s.cfg.iv.watts 4 : Rat) / 1000) (byte s.cfg.iv.status0) (byte s.cfg.iv.status1))
        phase := .idle }) ∧
      (s.cur.desc.layout = .pi → step s = .next { s with
        turns := s.turns.tail
        res := .value (.productInformation ((p.payload.drop s.cfg.pi.model).take s.cfg.pi.modelLen)
          (byte s.cfg.pi.fwMajor) (byte s.cfg.pi.fwMinor)
          (Nat.toDigits 16 (byte s.cfg.pi.fwMajor).toNat ++ '.' :: Nat.toDigits 16 (byte s.cfg.pi.fwMinor).toNat)
          ((p.payload.drop s.cfg.pi.serial).take s.cfg.pi.serialLen))
        phase := .idle }) ∧
      (s.cur.desc.layout = .tp →
        let a := field s.cfg.tp.a 4
        let ta := field s.cfg.tp.ta 2
        let b := field s.cfg.tp.b 4
        let tb := field s.cfg.tp.tb 2
        let style := byte s.cfg.tp.style
        ∃ r, step s = .next { s with
          turns := s.turns.tail
          tpA := BitVec.ofNat 32 a, tpTA := BitVec.ofNat 16 ta, tpB := BitVec.ofNat 32 b, tpTB := BitVec.ofNat 16 tb
          tpStyle := style, res := r, phase := .idle } ∧
          (∀ st, style = styleCode st →
            r = .value (.transient ((a : Rat) / (s.cur.desc.scale : Rat)) ((ta : Rat) / 1000)
              ((b : Rat) / (s.cur.desc.scale : Rat)) ((tb : Rat) / 1000) (styleText st))) ∧
          (2 < style.toNat → r = .error (.unmappedCode style)))

/-- The big-step view of a transaction's read (R277): 26 steps take the 26 oldest bytes in order, and leave the rest
waiting, where each of them is the SFC's own, whatever turns follow (entry 2). -/
def Obligations.TwentySixStepsReadTheReply : Prop :=
  ∀ (s : State) (reply rest : List Byte), s.SfcMovesFor 26 → s.phase = .rx → s.rxcnt = 0 → s.rxbuf.length = 26 →
    reply.length = 26 → s.rxstream = reply ++ rest →
    Sys2Proof.core.run 26 s = .next { s with turns := s.turns.drop 26, rxbuf := reply, rxcnt := 26, rxstream := rest }

/-- A TRANSACT used on its own hands back the 26 raw bytes, undecoded (R277, entries 9, 10, 14). -/
def Obligations.BareTransactReturnsTheRawBytes : Prop :=
  ∀ s : State, s.SfcMoves → s.phase = .rx → s.rxcnt = 26 → s.rawTxn = true →
    step s = .next { s with turns := s.turns.tail, ret := .bytes s.rxbuf, phase := .idle }

/-- The law of the transient profile (R238): what a `setTransient` sent, a `getTransient` whose reply carries the same data
bytes gives back, under every layout whose fields do not overlap. -/
def Obligations.TransientReadsBackWhatWasSet : Prop :=
  ∀ (s u : State) (m : Mode) (st : Style) (a ta b tb : Rat) (p : ParsedFrame), s.Sound → s.Ready →
    0 ≤ a → 0 ≤ ta → 0 ≤ b → 0 ≤ tb →
    let sp := (lookup s.cfg (.setTransient m)).scale
    roundRat (a * (sp : Rat)) < 2 ^ 32 → roundRat (ta * 1000) < 2 ^ 16 → roundRat (b * (sp : Rat)) < 2 ^ 32 →
    roundRat (tb * 1000) < 2 ^ 16 →
    (∃ k : Int, a * (sp : Rat) = k) → (∃ k : Int, ta * 1000 = k) → (∃ k : Int, b * (sp : Rat) = k) →
    (∃ k : Int, tb * 1000 = k) →
    u.SfcMoves → u.phase = .rx → u.rxcnt = 26 → u.rawTxn = false → u.cfg = s.cfg →
    u.cur.desc = lookup s.cfg (.getTransient m) → decodeFrame u.cfg.recog u.rxbuf = .ok p →
    ∃ t, exec (setTransientRow m (modeText m) a ta b tb (styleText st)) s = .next t ∧
      (p.payload.take (tpDataLen s.cfg.tp) = (t.txbuf.drop 3).take (tpDataLen s.cfg.tp) →
        ∃ v, step u = .next v ∧ v.res = .value (.transient a ta b tb (styleText st)) ∧ v.phase = .idle)

/-! ### Every step -/

/-- The invariant that every step keeps. -/
def Obligations.StepKeepsTheInvariant : Prop :=
  ∀ s t : State, s.Inv → step s = .next t → t.Inv

/-- The state after reset meets the invariant. The values of the registers that R39 leaves open are the model's (entry 1);
of them it uses that the buffers are 26 bytes long and that CUR holds a table row. -/
def Obligations.ResetMeetsTheInvariant : Prop := State.reset.Inv

/-- The state after reset, where the spec gives a value (R39, R330): closed, idle, ADDR and RXCNT 0, both streams empty. -/
def Obligations.ResetState : Prop :=
  State.reset.sess = .closed ∧ State.reset.phase = .idle ∧ State.reset.addr = 0x00 ∧ State.reset.rxcnt = 0 ∧
    State.reset.txstream = [] ∧ State.reset.rxstream = []

/-- No step rewrites what was sent, and none flushes what was received: TXSTREAM only grows, by a whole frame or nothing
(R34); RXSTREAM loses at most its oldest byte and is otherwise only appended to (R35). -/
def Obligations.StreamsAreNeverRewrittenOrFlushed : Prop :=
  ∀ s t : State, step s = .next t →
    (∃ x, t.txstream = s.txstream ++ x ∧ (x = [] ∨ x.length = 26)) ∧
    ((∃ y, t.rxstream = s.rxstream ++ y) ∨ ∃ b, s.rxstream = b :: t.rxstream)

/-- SESS is written by `open` and `close` alone, and ADDR by `open` alone (R21, R22). -/
def Obligations.OnlyOpenAndCloseMoveTheSession : Prop :=
  ∀ s t : State, step s = .next t →
    (t.addr ≠ s.addr → ∃ c rest p b a, s.turns = .cmd c :: rest ∧ fetch s.cfg c = .ok (.openSession p b a)) ∧
    (t.sess ≠ s.sess → ∃ c rest i, s.turns = .cmd c :: rest ∧ fetch s.cfg c = .ok i ∧
      (i = .closeSession ∨ ∃ p b a, i = .openSession p b a))

/-- No step writes the configuration, CDT's contents among it (R32, R65). -/
def Obligations.ConfigurationIsNeverWritten : Prop :=
  ∀ s t : State, step s = .next t → t.cfg = s.cfg ∧ ∀ op, lookup t.cfg op = lookup s.cfg op

/-- An error leaves the session as it was (R305, R310): a step whose result is a new error keeps SESS and ADDR and ends in
IDLE. -/
def Obligations.ErrorsKeepTheSession : Prop :=
  ∀ (s t : State) (e : Err), step s = .next t → t.res = .error e → s.res ≠ .error e →
    t.sess = s.sess ∧ t.addr = s.addr ∧ t.phase = .idle

/-- When the SFC is stuck (R11, R279): in RX with fewer than 26 bytes, nothing waiting and no event to come, and only then;
in IDLE when nothing is left to come (entry 13). -/
def Obligations.StuckExactlyWhenNothingCanMove : Prop :=
  ∀ s : State,
    (step s = .fault .stuckReceiving ↔ s.turns = [] ∧ s.phase = .rx ∧ s.rxcnt < 26 ∧ s.rxstream = []) ∧
    (step s = .fault .stuckIdle ↔ s.turns = [] ∧ s.phase = .idle)

/-- Under the invariant every completion delivers: no reply and no descriptor of the table can leave it without a result
(R158). -/
def Obligations.CompletionsAlwaysDeliver : Prop :=
  ∀ s : State, s.Inv → s.SfcMoves → s.phase = .rx → s.rxcnt = 26 →
    ∃ t, step s = .next t ∧ t.phase = .idle ∧ t.turns = s.turns.tail ∧ t.txstream = s.txstream ∧ t.rxstream = s.rxstream
end

