-- ==== Sys2Proof/Laws/Codec.lean ====
section
/-! SUPPORT. The small lemmas of the codec, the operands and the table: what the proofs cite instead of unfolding them. -/

namespace Sys2Proof.Machine

/-! ### Little-endian integers -/

@[simp] theorem leBytes_length (n v : Nat) : (leBytes n v).length = n := by
  induction n generalizing v with
  | zero => rfl
  | succ n ih => simp [leBytes, ih]

theorem decInt_append (a b : List Byte) : decInt (a ++ b) = decInt a + 256 ^ a.length * decInt b := by
  induction a with
  | nil => simp [decInt]
  | cons x xs ih => simp only [List.cons_append, decInt, ih, List.length_cons]; ring

theorem decInt_lt (b : List Byte) : decInt b < 256 ^ b.length := by
  induction b with
  | nil => simp [decInt]
  | cons x xs ih =>
    have hx := x.isLt
    simp only [decInt, List.length_cons, pow_succ]
    omega

theorem memRead_lt (buf : List Byte) (off n : Nat) : memRead buf off n < 256 ^ n := by
  refine lt_of_lt_of_le (decInt_lt _) (Nat.pow_le_pow_right (by omega) ?_)
  simp

theorem encInt_fits (o : Overflow) {v : Nat} {n : Nat} (h : v < 256 ^ n) : encInt o (v : Int) n = .ok (leBytes n v) := by
  have h1 : ¬((v : Int) < 0) := by omega
  have h2 : ¬(((256 ^ n : Nat) : Int) ≤ v) := by exact_mod_cast Nat.not_le.mpr h
  simp only [encInt, if_neg h1, if_neg h2, Int.toNat_natCast]

theorem encInt_negative (o : Overflow) {v : Int} (n : Nat) (h : v < 0) : encInt o v n = .error .invalidParameter := by
  simp [encInt, h]

/-! ### Frames -/

theorem frameBytes_length (opc addr : Byte) {p : List Byte} (h : p.length ≤ payloadCap) :
    (frameBytes opc addr p).length = frameLen := by
  simp only [frameBytes, frameLen, payloadCap] at *
  simp
  omega

theorem frameBytes_cons (opc addr : Byte) (p : List Byte) :
    frameBytes opc addr p = header :: addr :: opc :: (p ++ List.replicate (payloadCap - p.length) 0 ++
      [csum8 ([header, addr, opc] ++ p ++ List.replicate (payloadCap - p.length) 0)]) := by
  simp [frameBytes]

@[simp] theorem frameBytes_header (opc addr : Byte) (p : List Byte) : (frameBytes opc addr p).getD 0 0 = header := by
  simp [frameBytes]

@[simp] theorem frameBytes_address (opc addr : Byte) (p : List Byte) : (frameBytes opc addr p).getD 1 0 = addr := by
  simp [frameBytes]

@[simp] theorem frameBytes_opcode (opc addr : Byte) (p : List Byte) : (frameBytes opc addr p).getD 2 0 = opc := by
  simp [frameBytes]

theorem encodeFrame_frame {recog : List Byte} {opc addr : Byte} {p : List Byte} (ha : addr ≠ addrForbidden)
    (ho : opc ∈ recog) (hp : p.length ≤ payloadCap) : encodeFrame recog opc addr p = .frame (frameBytes opc addr p) := by
  have h1 : recog.contains opc = true := by simpa using ho
  have h2 : ¬ payloadCap < p.length := by omega
  simp only [encodeFrame, if_neg h2, h1, ha]
  simp

/-- Everything `ENCODE` can do. -/
theorem encodeFrame_cases (recog : List Byte) (opc addr : Byte) (p : List Byte) :
    (encodeFrame recog opc addr p = .outside ∧ (addr = addrForbidden ∨ opc ∉ recog)) ∨
    (encodeFrame recog opc addr p = .error .invalidPayload ∧ payloadCap < p.length) ∨
    (encodeFrame recog opc addr p = .frame (frameBytes opc addr p) ∧ p.length ≤ payloadCap ∧ addr ≠ addrForbidden ∧
      opc ∈ recog) := by
  unfold encodeFrame
  split_ifs with h1 h2
  · exact .inl ⟨rfl, by simpa using h1⟩
  · exact .inr (.inl ⟨rfl, h2⟩)
  · simp only [not_or, Bool.not_eq_false] at h1
    exact .inr (.inr ⟨rfl, by omega, h1.1, by simpa using h1.2⟩)

/-! ### The table -/

@[simp] theorem lookup_opcode (c : Config) (op : OpName) : (lookup c op).opcode = opcOf c op := by
  cases op <;> rfl

theorem lookup_mem_of_key {α β : Type} [DecidableEq α] {l : List (α × β)} {k : α} (h : k ∈ l.map Prod.fst) :
    ∃ b, l.lookup k = some b ∧ (k, b) ∈ l := by
  induction l with
  | nil => simp at h
  | cons p ps ih =>
    obtain ⟨a, b⟩ := p
    by_cases hk : k = a
    · subst hk; exact ⟨b, by simp, by simp⟩
    · obtain ⟨b', h1, h2⟩ := ih (by simpa [hk] using h)
      exact ⟨b', by simp [List.lookup, beq_false_of_ne hk, h1], by simp [h2]⟩

theorem opcOf_mem {c : Config} (h : c.Ok) (op : OpName) : (op, opcOf c op) ∈ c.opc := by
  obtain ⟨b, h1, h2⟩ := lookup_mem_of_key (h.opcTotal op)
  simpa [opcOf, h1] using h2

theorem opcOf_recognised {c : Config} (h : c.Ok) (op : OpName) : opcOf c op ∈ c.recog :=
  h.recogOpc _ (opcOf_mem h op)

theorem opcOf_ne_statusMark {c : Config} (h : c.Ok) (op : OpName) : opcOf c op ≠ statusMark := by
  intro he
  have := (h.opcRange _ (opcOf_mem h op)).1
  simp [he, statusMark] at this

/-! ### Fields of a profile -/

theorem memWrite_length {buf : List Byte} {off n : Nat} (v : Nat) (h : off + n ≤ buf.length) :
    (memWrite buf off n v).length = buf.length := by
  simp [memWrite]; omega

theorem tpPack_length (l : TPLayout) (a ta b tb st : Nat) : (tpPack l a ta b tb st).length = tpDataLen l := by
  have h0 : (List.replicate (tpDataLen l) (0 : Byte)).length = tpDataLen l := by simp
  have ha : l.a + 4 ≤ tpDataLen l := by simp [tpDataLen]
  have hta : l.ta + 2 ≤ tpDataLen l := by simp [tpDataLen]
  have hb : l.b + 4 ≤ tpDataLen l := by simp [tpDataLen]
  have htb : l.tb + 2 ≤ tpDataLen l := by simp [tpDataLen]
  have hs : l.style + 1 ≤ tpDataLen l := by simp [tpDataLen]
  have h1 := (memWrite_length a (ha.trans_eq h0.symm)).trans h0
  have h2 := (memWrite_length ta (hta.trans_eq h1.symm)).trans h1
  have h3 := (memWrite_length b (hb.trans_eq h2.symm)).trans h2
  have h4 := (memWrite_length tb (htb.trans_eq h3.symm)).trans h3
  exact (memWrite_length st (hs.trans_eq h4.symm)).trans h4

/-- The default configuration meets the constraints of R87, R89 and the layouts. -/
theorem defaultConfig_ok : defaultConfig.Ok where
  opcTotal op := by cases op <;> first | decide | (rename_i m; cases m <;> decide)
  opcKeys := by decide
  opcInjective := by decide
  opcRange := by decide
  opcCCCurrent := by decide
  recogMark := by decide
  recogOpc := by decide
  scaleRPos := by decide
  tpInside := by decide
  tpApart := by simp [defaultConfig, defaultTP, fieldsApart]
  ivInside := by decide
  piInside := by decide

end Sys2Proof.Machine
end

