-- ==== Sys2Proof/Laws/Operands.lean ====
section
/-! SUPPORT. The small lemmas of the scaler and of the enumerations. -/

namespace Sys2Proof.Machine

/-! ### Rounding and scaling -/

/-- `ROUND` of an integer is that integer (R147 (a)). -/
@[simp] theorem roundRat_int (k : Int) : roundRat (k : Rat) = k := by
  simp [roundRat]

theorem roundRat_nonneg {q : Rat} (h : 0 ≤ q) : 0 ≤ roundRat q := by
  have hn : 0 ≤ q.num := Rat.num_nonneg.mpr h
  have hd : 0 ≤ q.num / (q.den : Int) := Int.ediv_nonneg hn (by positivity)
  simp only [roundRat]
  split_ifs <;> omega

/-- Everything `SCALE` can do under OVERFLOW = fault or truncate. -/
theorem scaleValue_cases (o : Overflow) (x : Rat) (s n : Nat) :
    (x < 0 ∧ scaleValue o x s n = .error .invalidParameter) ∨
    (0 ≤ x ∧ ((256 ^ n : Nat) : Int) ≤ roundRat (x * s) ∧ o = .fault ∧ scaleValue o x s n = .error .invalidParameter) ∨
    (0 ≤ x ∧ ((256 ^ n : Nat) : Int) ≤ roundRat (x * s) ∧ o = .truncate ∧
      scaleValue o x s n = .ok ((roundRat (x * s)).toNat % 256 ^ n)) ∨
    (0 ≤ x ∧ roundRat (x * s) < (256 ^ n : Nat) ∧ scaleValue o x s n = .ok (roundRat (x * s)).toNat) := by
  by_cases hx : x < 0
  · exact .inl ⟨hx, by simp [scaleValue, hx]⟩
  · have h0 : 0 ≤ x := not_lt.mp hx
    by_cases hw : ((256 ^ n : Nat) : Int) ≤ roundRat (x * s)
    · cases o with
      | fault => exact .inr (.inl ⟨h0, hw, rfl, by simp only [scaleValue, if_neg hx, if_pos hw]⟩)
      | truncate => exact .inr (.inr (.inl ⟨h0, hw, rfl, by simp only [scaleValue, if_neg hx, if_pos hw]⟩))
    · exact .inr (.inr (.inr ⟨h0, not_le.mp hw, by simp only [scaleValue, if_neg hx, if_neg hw]⟩))

theorem scaleValue_fits {o : Overflow} {x : Rat} {s n : Nat} (h0 : 0 ≤ x) (hw : roundRat (x * s) < (256 ^ n : Nat)) :
    scaleValue o x s n = .ok (roundRat (x * s)).toNat := by
  simp only [scaleValue, if_neg (not_lt.mpr h0), if_neg (not_le.mpr hw)]

theorem scaleValue_negative {o : Overflow} {x : Rat} (s n : Nat) (h : x < 0) :
    scaleValue o x s n = .error .invalidParameter := by
  simp [scaleValue, h]

theorem scaleValue_lt {o : Overflow} {x : Rat} {s n w : Nat} (h : scaleValue o x s n = .ok w) : w < 256 ^ n := by
  obtain ⟨_, h1⟩ | ⟨_, _, _, h1⟩ | ⟨_, _, _, h1⟩ | ⟨h0, h2, h1⟩ := scaleValue_cases o x s n <;>
    rw [h1] at h <;> simp only [reduceCtorEq, Except.ok.injEq] at h
  · exact h ▸ Nat.mod_lt _ (by positivity)
  · have : 0 ≤ roundRat (x * s) := roundRat_nonneg (by positivity)
    rw [← h]
    have h3 : (((roundRat (x * s)).toNat : Int)) < (256 ^ n : Nat) := by rwa [Int.toNat_of_nonneg this]
    exact_mod_cast h3

/-! ### Enumerations -/

@[simp] theorem parseMode_text (f : Bool) (m : Mode) : parseMode f (modeText m) = some m := by
  cases m <;> rfl

@[simp] theorem parseFunction_text (f : Bool) (m : LoadFunction) : parseFunction f (functionText m) = some m := by
  cases m <;> rfl

@[simp] theorem parseTrigger_text (f : Bool) (m : TriggerSource) : parseTrigger f (triggerText m) = some m := by
  cases m <;> rfl

@[simp] theorem parseStyle_text (f : Bool) (m : Style) : parseStyle f (styleText m) = some m := by
  cases m <;> rfl

@[simp] theorem enumTextOfCode_mode (m : Mode) : enumTextOfCode .mode (modeCode m) = some (modeText m) := by
  cases m <;> rfl

@[simp] theorem enumTextOfCode_function (m : LoadFunction) :
    enumTextOfCode .function (functionCode m) = some (functionText m) := by
  cases m <;> rfl

@[simp] theorem enumTextOfCode_trigger (m : TriggerSource) :
    enumTextOfCode .trigger (triggerCode m) = some (triggerText m) := by
  cases m <;> rfl

@[simp] theorem styleTextOfCode_code (m : Style) : styleTextOfCode (styleCode m) = some (styleText m) := by
  cases m <;> rfl

@[simp] theorem flagOfByte_flagByte (b : Bool) : flagOfByte (flagByte b) = some b := by
  cases b <;> rfl

end Sys2Proof.Machine
end

