-- ==== Sys2Proof/Laws/State.lean ====
section
/-! SUPPORT. What each named update of the state leaves in each field: one lemma for each field of each update, by rfl. -/

namespace Sys2Proof.Machine

/-! ### `raise` -/

@[simp] theorem raise_sess (e : Err) (s : State) : (raise e s).sess = s.sess := rfl
@[simp] theorem raise_addr (e : Err) (s : State) : (raise e s).addr = s.addr := rfl
@[simp] theorem raise_phase (e : Err) (s : State) : (raise e s).phase = .idle := rfl
@[simp] theorem raise_txbuf (e : Err) (s : State) : (raise e s).txbuf = s.txbuf := rfl
@[simp] theorem raise_rxbuf (e : Err) (s : State) : (raise e s).rxbuf = s.rxbuf := rfl
@[simp] theorem raise_rxcnt (e : Err) (s : State) : (raise e s).rxcnt = s.rxcnt := rfl
@[simp] theorem raise_cur (e : Err) (s : State) : (raise e s).cur = s.cur := rfl
@[simp] theorem raise_opr (e : Err) (s : State) : (raise e s).opr = s.opr := rfl
@[simp] theorem raise_tpMode (e : Err) (s : State) : (raise e s).tpMode = s.tpMode := rfl
@[simp] theorem raise_tpA (e : Err) (s : State) : (raise e s).tpA = s.tpA := rfl
@[simp] theorem raise_tpTA (e : Err) (s : State) : (raise e s).tpTA = s.tpTA := rfl
@[simp] theorem raise_tpB (e : Err) (s : State) : (raise e s).tpB = s.tpB := rfl
@[simp] theorem raise_tpTB (e : Err) (s : State) : (raise e s).tpTB = s.tpTB := rfl
@[simp] theorem raise_tpStyle (e : Err) (s : State) : (raise e s).tpStyle = s.tpStyle := rfl
@[simp] theorem raise_res (e : Err) (s : State) : (raise e s).res = .error e := rfl
@[simp] theorem raise_txstream (e : Err) (s : State) : (raise e s).txstream = s.txstream := rfl
@[simp] theorem raise_rxstream (e : Err) (s : State) : (raise e s).rxstream = s.rxstream := rfl
@[simp] theorem raise_cfg (e : Err) (s : State) : (raise e s).cfg = s.cfg := rfl
@[simp] theorem raise_turns (e : Err) (s : State) : (raise e s).turns = s.turns := rfl
@[simp] theorem raise_portFree (e : Err) (s : State) : (raise e s).portFree = s.portFree := rfl
@[simp] theorem raise_rawTxn (e : Err) (s : State) : (raise e s).rawTxn = s.rawTxn := rfl
@[simp] theorem raise_ret (e : Err) (s : State) : (raise e s).ret = s.ret := rfl

/-! ### `deliver` -/

@[simp] theorem deliver_sess (r : Result) (s : State) : (deliver r s).sess = s.sess := rfl
@[simp] theorem deliver_addr (r : Result) (s : State) : (deliver r s).addr = s.addr := rfl
@[simp] theorem deliver_phase (r : Result) (s : State) : (deliver r s).phase = .idle := rfl
@[simp] theorem deliver_txbuf (r : Result) (s : State) : (deliver r s).txbuf = s.txbuf := rfl
@[simp] theorem deliver_rxbuf (r : Result) (s : State) : (deliver r s).rxbuf = s.rxbuf := rfl
@[simp] theorem deliver_rxcnt (r : Result) (s : State) : (deliver r s).rxcnt = s.rxcnt := rfl
@[simp] theorem deliver_cur (r : Result) (s : State) : (deliver r s).cur = s.cur := rfl
@[simp] theorem deliver_opr (r : Result) (s : State) : (deliver r s).opr = s.opr := rfl
@[simp] theorem deliver_tpMode (r : Result) (s : State) : (deliver r s).tpMode = s.tpMode := rfl
@[simp] theorem deliver_tpA (r : Result) (s : State) : (deliver r s).tpA = s.tpA := rfl
@[simp] theorem deliver_tpTA (r : Result) (s : State) : (deliver r s).tpTA = s.tpTA := rfl
@[simp] theorem deliver_tpB (r : Result) (s : State) : (deliver r s).tpB = s.tpB := rfl
@[simp] theorem deliver_tpTB (r : Result) (s : State) : (deliver r s).tpTB = s.tpTB := rfl
@[simp] theorem deliver_tpStyle (r : Result) (s : State) : (deliver r s).tpStyle = s.tpStyle := rfl
@[simp] theorem deliver_res (r : Result) (s : State) : (deliver r s).res = r := rfl
@[simp] theorem deliver_txstream (r : Result) (s : State) : (deliver r s).txstream = s.txstream := rfl
@[simp] theorem deliver_rxstream (r : Result) (s : State) : (deliver r s).rxstream = s.rxstream := rfl
@[simp] theorem deliver_cfg (r : Result) (s : State) : (deliver r s).cfg = s.cfg := rfl
@[simp] theorem deliver_turns (r : Result) (s : State) : (deliver r s).turns = s.turns := rfl
@[simp] theorem deliver_portFree (r : Result) (s : State) : (deliver r s).portFree = s.portFree := rfl
@[simp] theorem deliver_rawTxn (r : Result) (s : State) : (deliver r s).rawTxn = s.rawTxn := rfl
@[simp] theorem deliver_ret (r : Result) (s : State) : (deliver r s).ret = s.ret := rfl

/-! ### `answer` -/

@[simp] theorem answer_sess (r : Ret) (s : State) : (answer r s).sess = s.sess := rfl
@[simp] theorem answer_addr (r : Ret) (s : State) : (answer r s).addr = s.addr := rfl
@[simp] theorem answer_phase (r : Ret) (s : State) : (answer r s).phase = s.phase := rfl
@[simp] theorem answer_txbuf (r : Ret) (s : State) : (answer r s).txbuf = s.txbuf := rfl
@[simp] theorem answer_rxbuf (r : Ret) (s : State) : (answer r s).rxbuf = s.rxbuf := rfl
@[simp] theorem answer_rxcnt (r : Ret) (s : State) : (answer r s).rxcnt = s.rxcnt := rfl
@[simp] theorem answer_cur (r : Ret) (s : State) : (answer r s).cur = s.cur := rfl
@[simp] theorem answer_opr (r : Ret) (s : State) : (answer r s).opr = s.opr := rfl
@[simp] theorem answer_tpMode (r : Ret) (s : State) : (answer r s).tpMode = s.tpMode := rfl
@[simp] theorem answer_tpA (r : Ret) (s : State) : (answer r s).tpA = s.tpA := rfl
@[simp] theorem answer_tpTA (r : Ret) (s : State) : (answer r s).tpTA = s.tpTA := rfl
@[simp] theorem answer_tpB (r : Ret) (s : State) : (answer r s).tpB = s.tpB := rfl
@[simp] theorem answer_tpTB (r : Ret) (s : State) : (answer r s).tpTB = s.tpTB := rfl
@[simp] theorem answer_tpStyle (r : Ret) (s : State) : (answer r s).tpStyle = s.tpStyle := rfl
@[simp] theorem answer_res (r : Ret) (s : State) : (answer r s).res = s.res := rfl
@[simp] theorem answer_txstream (r : Ret) (s : State) : (answer r s).txstream = s.txstream := rfl
@[simp] theorem answer_rxstream (r : Ret) (s : State) : (answer r s).rxstream = s.rxstream := rfl
@[simp] theorem answer_cfg (r : Ret) (s : State) : (answer r s).cfg = s.cfg := rfl
@[simp] theorem answer_turns (r : Ret) (s : State) : (answer r s).turns = s.turns := rfl
@[simp] theorem answer_portFree (r : Ret) (s : State) : (answer r s).portFree = s.portFree := rfl
@[simp] theorem answer_rawTxn (r : Ret) (s : State) : (answer r s).rawTxn = s.rawTxn := rfl
@[simp] theorem answer_ret (r : Ret) (s : State) : (answer r s).ret = r := rfl

/-! ### `writeStep` -/

@[simp] theorem writeStep_sess (s : State) : (writeStep s).sess = s.sess := rfl
@[simp] theorem writeStep_addr (s : State) : (writeStep s).addr = s.addr := rfl
@[simp] theorem writeStep_phase (s : State) : (writeStep s).phase = .rx := rfl
@[simp] theorem writeStep_txbuf (s : State) : (writeStep s).txbuf = s.txbuf := rfl
@[simp] theorem writeStep_rxbuf (s : State) : (writeStep s).rxbuf = s.rxbuf := rfl
@[simp] theorem writeStep_rxcnt (s : State) : (writeStep s).rxcnt = 0 := rfl
@[simp] theorem writeStep_cur (s : State) : (writeStep s).cur = s.cur := rfl
@[simp] theorem writeStep_opr (s : State) : (writeStep s).opr = s.opr := rfl
@[simp] theorem writeStep_tpMode (s : State) : (writeStep s).tpMode = s.tpMode := rfl
@[simp] theorem writeStep_tpA (s : State) : (writeStep s).tpA = s.tpA := rfl
@[simp] theorem writeStep_tpTA (s : State) : (writeStep s).tpTA = s.tpTA := rfl
@[simp] theorem writeStep_tpB (s : State) : (writeStep s).tpB = s.tpB := rfl
@[simp] theorem writeStep_tpTB (s : State) : (writeStep s).tpTB = s.tpTB := rfl
@[simp] theorem writeStep_tpStyle (s : State) : (writeStep s).tpStyle = s.tpStyle := rfl
@[simp] theorem writeStep_res (s : State) : (writeStep s).res = s.res := rfl
@[simp] theorem writeStep_txstream (s : State) : (writeStep s).txstream = s.txstream ++ s.txbuf := rfl
@[simp] theorem writeStep_rxstream (s : State) : (writeStep s).rxstream = s.rxstream := rfl
@[simp] theorem writeStep_cfg (s : State) : (writeStep s).cfg = s.cfg := rfl
@[simp] theorem writeStep_turns (s : State) : (writeStep s).turns = s.turns := rfl
@[simp] theorem writeStep_portFree (s : State) : (writeStep s).portFree = s.portFree := rfl
@[simp] theorem writeStep_rawTxn (s : State) : (writeStep s).rawTxn = s.rawTxn := rfl
@[simp] theorem writeStep_ret (s : State) : (writeStep s).ret = s.ret := rfl

/-! ### `receive` -/

@[simp] theorem receive_sess (b : Byte) (rest : List Byte) (s : State) : (receive b rest s).sess = s.sess := rfl
@[simp] theorem receive_addr (b : Byte) (rest : List Byte) (s : State) : (receive b rest s).addr = s.addr := rfl
@[simp] theorem receive_phase (b : Byte) (rest : List Byte) (s : State) : (receive b rest s).phase = s.phase := rfl
@[simp] theorem receive_txbuf (b : Byte) (rest : List Byte) (s : State) : (receive b rest s).txbuf = s.txbuf := rfl
@[simp] theorem receive_rxbuf (b : Byte) (rest : List Byte) (s : State) : (receive b rest s).rxbuf = s.rxbuf.set s.rxcnt b := rfl
@[simp] theorem receive_rxcnt (b : Byte) (rest : List Byte) (s : State) : (receive b rest s).rxcnt = s.rxcnt + 1 := rfl
@[simp] theorem receive_cur (b : Byte) (rest : List Byte) (s : State) : (receive b rest s).cur = s.cur := rfl
@[simp] theorem receive_opr (b : Byte) (rest : List Byte) (s : State) : (receive b rest s).opr = s.opr := rfl
@[simp] theorem receive_tpMode (b : Byte) (rest : List Byte) (s : State) : (receive b rest s).tpMode = s.tpMode := rfl
@[simp] theorem receive_tpA (b : Byte) (rest : List Byte) (s : State) : (receive b rest s).tpA = s.tpA := rfl
@[simp] theorem receive_tpTA (b : Byte) (rest : List Byte) (s : State) : (receive b rest s).tpTA = s.tpTA := rfl
@[simp] theorem receive_tpB (b : Byte) (rest : List Byte) (s : State) : (receive b rest s).tpB = s.tpB := rfl
@[simp] theorem receive_tpTB (b : Byte) (rest : List Byte) (s : State) : (receive b rest s).tpTB = s.tpTB := rfl
@[simp] theorem receive_tpStyle (b : Byte) (rest : List Byte) (s : State) : (receive b rest s).tpStyle = s.tpStyle := rfl
@[simp] theorem receive_res (b : Byte) (rest : List Byte) (s : State) : (receive b rest s).res = s.res := rfl
@[simp] theorem receive_txstream (b : Byte) (rest : List Byte) (s : State) : (receive b rest s).txstream = s.txstream := rfl
@[simp] theorem receive_rxstream (b : Byte) (rest : List Byte) (s : State) : (receive b rest s).rxstream = rest := rfl
@[simp] theorem receive_cfg (b : Byte) (rest : List Byte) (s : State) : (receive b rest s).cfg = s.cfg := rfl
@[simp] theorem receive_turns (b : Byte) (rest : List Byte) (s : State) : (receive b rest s).turns = s.turns := rfl
@[simp] theorem receive_portFree (b : Byte) (rest : List Byte) (s : State) : (receive b rest s).portFree = s.portFree := rfl
@[simp] theorem receive_rawTxn (b : Byte) (rest : List Byte) (s : State) : (receive b rest s).rawTxn = s.rawTxn := rfl
@[simp] theorem receive_ret (b : Byte) (rest : List Byte) (s : State) : (receive b rest s).ret = s.ret := rfl

/-! ### `supply` -/

@[simp] theorem supply_sess (bs : List Byte) (s : State) : (supply bs s).sess = s.sess := rfl
@[simp] theorem supply_addr (bs : List Byte) (s : State) : (supply bs s).addr = s.addr := rfl
@[simp] theorem supply_phase (bs : List Byte) (s : State) : (supply bs s).phase = s.phase := rfl
@[simp] theorem supply_txbuf (bs : List Byte) (s : State) : (supply bs s).txbuf = s.txbuf := rfl
@[simp] theorem supply_rxbuf (bs : List Byte) (s : State) : (supply bs s).rxbuf = s.rxbuf := rfl
@[simp] theorem supply_rxcnt (bs : List Byte) (s : State) : (supply bs s).rxcnt = s.rxcnt := rfl
@[simp] theorem supply_cur (bs : List Byte) (s : State) : (supply bs s).cur = s.cur := rfl
@[simp] theorem supply_opr (bs : List Byte) (s : State) : (supply bs s).opr = s.opr := rfl
@[simp] theorem supply_tpMode (bs : List Byte) (s : State) : (supply bs s).tpMode = s.tpMode := rfl
@[simp] theorem supply_tpA (bs : List Byte) (s : State) : (supply bs s).tpA = s.tpA := rfl
@[simp] theorem supply_tpTA (bs : List Byte) (s : State) : (supply bs s).tpTA = s.tpTA := rfl
@[simp] theorem supply_tpB (bs : List Byte) (s : State) : (supply bs s).tpB = s.tpB := rfl
@[simp] theorem supply_tpTB (bs : List Byte) (s : State) : (supply bs s).tpTB = s.tpTB := rfl
@[simp] theorem supply_tpStyle (bs : List Byte) (s : State) : (supply bs s).tpStyle = s.tpStyle := rfl
@[simp] theorem supply_res (bs : List Byte) (s : State) : (supply bs s).res = s.res := rfl
@[simp] theorem supply_txstream (bs : List Byte) (s : State) : (supply bs s).txstream = s.txstream := rfl
@[simp] theorem supply_rxstream (bs : List Byte) (s : State) : (supply bs s).rxstream = s.rxstream ++ bs := rfl
@[simp] theorem supply_cfg (bs : List Byte) (s : State) : (supply bs s).cfg = s.cfg := rfl
@[simp] theorem supply_turns (bs : List Byte) (s : State) : (supply bs s).turns = s.turns := rfl
@[simp] theorem supply_portFree (bs : List Byte) (s : State) : (supply bs s).portFree = s.portFree := rfl
@[simp] theorem supply_rawTxn (bs : List Byte) (s : State) : (supply bs s).rawTxn = s.rawTxn := rfl
@[simp] theorem supply_ret (bs : List Byte) (s : State) : (supply bs s).ret = s.ret := rfl

/-! ### `tpDecode` -/

@[simp] theorem tpDecode_sess (p : List Byte) (s : State) : (tpDecode p s).sess = s.sess := rfl
@[simp] theorem tpDecode_addr (p : List Byte) (s : State) : (tpDecode p s).addr = s.addr := rfl
@[simp] theorem tpDecode_phase (p : List Byte) (s : State) : (tpDecode p s).phase = s.phase := rfl
@[simp] theorem tpDecode_txbuf (p : List Byte) (s : State) : (tpDecode p s).txbuf = s.txbuf := rfl
@[simp] theorem tpDecode_rxbuf (p : List Byte) (s : State) : (tpDecode p s).rxbuf = s.rxbuf := rfl
@[simp] theorem tpDecode_rxcnt (p : List Byte) (s : State) : (tpDecode p s).rxcnt = s.rxcnt := rfl
@[simp] theorem tpDecode_cur (p : List Byte) (s : State) : (tpDecode p s).cur = s.cur := rfl
@[simp] theorem tpDecode_opr (p : List Byte) (s : State) : (tpDecode p s).opr = s.opr := rfl
@[simp] theorem tpDecode_tpMode (p : List Byte) (s : State) : (tpDecode p s).tpMode = s.tpMode := rfl
@[simp] theorem tpDecode_tpA (p : List Byte) (s : State) : (tpDecode p s).tpA = BitVec.ofNat 32 (memRead p s.cfg.tp.a 4) := rfl
@[simp] theorem tpDecode_tpTA (p : List Byte) (s : State) : (tpDecode p s).tpTA = BitVec.ofNat 16 (memRead p s.cfg.tp.ta 2) := rfl
@[simp] theorem tpDecode_tpB (p : List Byte) (s : State) : (tpDecode p s).tpB = BitVec.ofNat 32 (memRead p s.cfg.tp.b 4) := rfl
@[simp] theorem tpDecode_tpTB (p : List Byte) (s : State) : (tpDecode p s).tpTB = BitVec.ofNat 16 (memRead p s.cfg.tp.tb 2) := rfl
@[simp] theorem tpDecode_tpStyle (p : List Byte) (s : State) : (tpDecode p s).tpStyle = BitVec.ofNat 8 (memRead p s.cfg.tp.style 1) := rfl
@[simp] theorem tpDecode_res (p : List Byte) (s : State) : (tpDecode p s).res = s.res := rfl
@[simp] theorem tpDecode_txstream (p : List Byte) (s : State) : (tpDecode p s).txstream = s.txstream := rfl
@[simp] theorem tpDecode_rxstream (p : List Byte) (s : State) : (tpDecode p s).rxstream = s.rxstream := rfl
@[simp] theorem tpDecode_cfg (p : List Byte) (s : State) : (tpDecode p s).cfg = s.cfg := rfl
@[simp] theorem tpDecode_turns (p : List Byte) (s : State) : (tpDecode p s).turns = s.turns := rfl
@[simp] theorem tpDecode_portFree (p : List Byte) (s : State) : (tpDecode p s).portFree = s.portFree := rfl
@[simp] theorem tpDecode_rawTxn (p : List Byte) (s : State) : (tpDecode p s).rawTxn = s.rawTxn := rfl
@[simp] theorem tpDecode_ret (p : List Byte) (s : State) : (tpDecode p s).ret = s.ret := rfl

/-! ### `State.issued` -/

@[simp] theorem State.issued_sess (op : OpName) (data : List Byte) (s : State) : (s.issued op data).sess = s.sess := rfl
@[simp] theorem State.issued_addr (op : OpName) (data : List Byte) (s : State) : (s.issued op data).addr = s.addr := rfl
@[simp] theorem State.issued_phase (op : OpName) (data : List Byte) (s : State) : (s.issued op data).phase = .rx := rfl
@[simp] theorem State.issued_txbuf (op : OpName) (data : List Byte) (s : State) : (s.issued op data).txbuf = s.requestOf op data := rfl
@[simp] theorem State.issued_rxbuf (op : OpName) (data : List Byte) (s : State) : (s.issued op data).rxbuf = s.rxbuf := rfl
@[simp] theorem State.issued_rxcnt (op : OpName) (data : List Byte) (s : State) : (s.issued op data).rxcnt = 0 := rfl
@[simp] theorem State.issued_cur (op : OpName) (data : List Byte) (s : State) : (s.issued op data).cur = { op := op, desc := lookup s.cfg op } := rfl
@[simp] theorem State.issued_opr (op : OpName) (data : List Byte) (s : State) : (s.issued op data).opr = s.opr := rfl
@[simp] theorem State.issued_tpMode (op : OpName) (data : List Byte) (s : State) : (s.issued op data).tpMode = s.tpMode := rfl
@[simp] theorem State.issued_tpA (op : OpName) (data : List Byte) (s : State) : (s.issued op data).tpA = s.tpA := rfl
@[simp] theorem State.issued_tpTA (op : OpName) (data : List Byte) (s : State) : (s.issued op data).tpTA = s.tpTA := rfl
@[simp] theorem State.issued_tpB (op : OpName) (data : List Byte) (s : State) : (s.issued op data).tpB = s.tpB := rfl
@[simp] theorem State.issued_tpTB (op : OpName) (data : List Byte) (s : State) : (s.issued op data).tpTB = s.tpTB := rfl
@[simp] theorem State.issued_tpStyle (op : OpName) (data : List Byte) (s : State) : (s.issued op data).tpStyle = s.tpStyle := rfl
@[simp] theorem State.issued_res (op : OpName) (data : List Byte) (s : State) : (s.issued op data).res = s.res := rfl
@[simp] theorem State.issued_txstream (op : OpName) (data : List Byte) (s : State) : (s.issued op data).txstream = s.txstream ++ s.requestOf op data := rfl
@[simp] theorem State.issued_rxstream (op : OpName) (data : List Byte) (s : State) : (s.issued op data).rxstream = s.rxstream := rfl
@[simp] theorem State.issued_cfg (op : OpName) (data : List Byte) (s : State) : (s.issued op data).cfg = s.cfg := rfl
@[simp] theorem State.issued_turns (op : OpName) (data : List Byte) (s : State) : (s.issued op data).turns = s.turns := rfl
@[simp] theorem State.issued_portFree (op : OpName) (data : List Byte) (s : State) : (s.issued op data).portFree = s.portFree := rfl
@[simp] theorem State.issued_rawTxn (op : OpName) (data : List Byte) (s : State) : (s.issued op data).rawTxn = false := rfl
@[simp] theorem State.issued_ret (op : OpName) (data : List Byte) (s : State) : (s.issued op data).ret = s.ret := rfl

end Sys2Proof.Machine
end

