-- ==== Sys2Proof/Laws/Ops.lean ====
section
/-! SUPPORT. One lemma for each shared operation that says once everything it can do. -/

namespace Sys2Proof.Machine

/-! ### The gate -/

theorem gate_ready {s : State} (h : s.Ready) (k : State → Out) : gate s k = k s := by
  simp [gate, h.1, h.2]

/-- Everything the gate can do. -/
theorem gate_cases (s : State) (k : State → Out) :
    (s.sess = .closed ∧ gate s k = .refused .noSession) ∨
    (s.sess = .opened ∧ s.phase = .rx ∧ gate s k = .refused .overlap) ∨ (s.Ready ∧ gate s k = k s) := by
  cases h1 : s.sess with
  | closed => exact .inl ⟨rfl, by simp [gate, h1]⟩
  | opened =>
    cases h2 : s.phase with
    | rx => exact .inr (.inl ⟨rfl, rfl, by simp [gate, h1, h2]⟩)
    | idle => exact .inr (.inr ⟨⟨h1, h2⟩, by simp [gate, h1, h2]⟩)

/-- If the gate lets an operation answer a next state, the session was open and idle. -/
theorem gate_next {s t : State} {k : State → Out} (h : gate s k = .next t) : s.Ready ∧ k s = .next t := by
  obtain ⟨_, h1⟩ | ⟨_, _, h1⟩ | ⟨hr, h1⟩ := gate_cases s k <;> rw [h1] at h
  · cases h
  · cases h
  · exact ⟨hr, h⟩

/-! ### The scaler -/

/-- Everything the scaler inside an operation can do: go on with a wire integer that fits, which OPR then holds, or end the
operation with the error. -/
theorem withScale_cases (x : Rat) (sc n : Nat) (s : State) (k : Nat → State → Out) :
    (∃ w, w < 256 ^ n ∧ scaleValue s.cfg.overflow x sc n = .ok w ∧
      withScale x sc n s k = k w { s with opr := BitVec.ofNat 32 w }) ∨
    (scaleValue s.cfg.overflow x sc n = .error .invalidParameter ∧
      withScale x sc n s k = .next (raise .invalidParameter s)) := by
  unfold withScale
  cases h : scaleValue s.cfg.overflow x sc n with
  | ok w => exact .inl ⟨w, scaleValue_lt h, rfl, rfl⟩
  | error e =>
    have he : e = .invalidParameter := by
      obtain ⟨_, h1⟩ | ⟨_, _, _, h1⟩ | ⟨_, _, _, h1⟩ | ⟨_, _, h1⟩ := scaleValue_cases s.cfg.overflow x sc n <;>
        rw [h1] at h <;> simp_all
    subst he
    exact .inr ⟨rfl, rfl⟩

theorem withScale_fits {x : Rat} {sc n : Nat} {s : State} (k : Nat → State → Out) (h0 : 0 ≤ x)
    (hw : roundRat (x * sc) < (256 ^ n : Nat)) :
    withScale x sc n s k =
      k (roundRat (x * sc)).toNat { s with opr := BitVec.ofNat 32 (roundRat (x * sc)).toNat } := by
  simp only [withScale, scaleValue_fits h0 hw]

theorem withScale_negative {x : Rat} (sc n : Nat) (s : State) (k : Nat → State → Out) (h : x < 0) :
    withScale x sc n s k = .next (raise .invalidParameter s) := by
  simp only [withScale, scaleValue_negative sc n h]

theorem oprOf_small {w : Nat} (h : w < 2 ^ 32) : oprOf w = BitVec.ofNat 32 w := if_pos h

/-! ### The profile registers -/

/-- What `fillAbsent` leaves of the bytes given. -/
theorem memRead_fillAbsent {p : List Byte} {off n : Nat} (m : Nat) (h : off + n ≤ p.length) :
    memRead (fillAbsent p m) off n = memRead p off n := by
  have h1 : off ≤ p.length := by omega
  have h2 : n ≤ (p.drop off).length := by rw [List.length_drop]; omega
  rw [memRead, memRead, fillAbsent, List.drop_append_of_le_length h1, List.take_append_of_le_length h2]

/-- Bytes that reach every field are read as they are. -/
theorem fillAbsent_long {p : List Byte} {m : Nat} (h : m ≤ p.length) : fillAbsent p m = p := by
  simp [fillAbsent, Nat.sub_eq_zero_of_le h]

/-! ### BUILD and the issue step -/

/-- Everything `BUILD` can do. -/
theorem build_cases (d : Desc) (data : List Byte) (s : State) (onFrame : State → Out) (onError : Err → Out) :
    ((s.addr = addrForbidden ∨ d.opcode ∉ s.cfg.recog) ∧
      build d data s onFrame onError = .refused .encodePrecondition) ∨
    (payloadCap < data.length ∧ build d data s onFrame onError = onError .invalidPayload) ∨
    (data.length ≤ payloadCap ∧ s.addr ≠ addrForbidden ∧ d.opcode ∈ s.cfg.recog ∧
      build d data s onFrame onError = onFrame { s with txbuf := frameBytes d.opcode s.addr data }) := by
  unfold build
  obtain ⟨h, h1⟩ | ⟨h, h1⟩ | ⟨h, h1, h2, h3⟩ := encodeFrame_cases s.cfg.recog d.opcode s.addr data
  · exact .inl ⟨h1, by rw [h]⟩
  · exact .inr (.inl ⟨h1, by rw [h]⟩)
  · exact .inr (.inr ⟨h1, h2, h3, by rw [h]⟩)

/-- The issue step cannot fail on data that the payload holds (R151: steps 2 to 5 cannot fail). -/
theorem issue_sound {s : State} (h : s.Sound) (op : OpName) {data : List Byte} (hd : data.length ≤ payloadCap) :
    issue op data s = .next (s.issued op data) := by
  have hf : encodeFrame s.cfg.recog (opcOf s.cfg op) s.addr data = .frame (frameBytes (opcOf s.cfg op) s.addr data) :=
    encodeFrame_frame h.2 (opcOf_recognised h.1 op) hd
  simp only [issue, build, lookup_opcode, hf]
  simp [writeStep, State.issued, State.requestOf]

/-- Everything the issue step can answer as a next state. -/
theorem issue_next {op : OpName} {data : List Byte} {s t : State} (h : issue op data s = .next t) :
    (data.length ≤ payloadCap ∧ s.addr ≠ addrForbidden ∧ opcOf s.cfg op ∈ s.cfg.recog ∧ t = s.issued op data) ∨
    (payloadCap < data.length ∧
      t = raise .invalidPayload { s with cur := { op := op, desc := lookup s.cfg op }, rawTxn := false }) := by
  simp only [issue] at h
  obtain ⟨_, h1⟩ | ⟨hd, h1⟩ | ⟨hd, ha, ho, h1⟩ := build_cases (lookup s.cfg op) data
    { s with cur := { op := op, desc := lookup s.cfg op }, rawTxn := false }
    (fun s2 => .next (writeStep s2))
    (fun e => .next (raise e { s with cur := { op := op, desc := lookup s.cfg op }, rawTxn := false })) <;>
    rw [h1] at h
  · cases h
  · exact .inr ⟨hd, by simpa using h.symm⟩
  · refine .inl ⟨hd, ha, by simpa using ho, ?_⟩
    simp only [Host.Outcome.next.injEq] at h
    rw [← h]
    simp [writeStep, State.issued, State.requestOf]

theorem setFlag_ready {s : State} (hr : s.Ready) (hs : s.Sound) (op : OpName) (b : Bool) :
    setFlag op b s = .next (s.issued op [flagByte b]) := by
  simp only [setFlag, gate_ready hr]
  exact issue_sound hs op (by simp [payloadCap])

theorem issueEmpty_ready {s : State} (hr : s.Ready) (hs : s.Sound) (op : OpName) :
    issueEmpty op s = .next (s.issued op []) := by
  simp only [issueEmpty, gate_ready hr]
  exact issue_sound hs op (by simp)

theorem setEnum_some {s : State} (hr : s.Ready) (hs : s.Sound) (op : OpName) (b : Byte) (e : Err) :
    setEnum op (some b) e s = .next (s.issued op [b]) := by
  simp only [setEnum, gate_ready hr]
  exact issue_sound hs op (by simp [payloadCap])

theorem setEnum_none {s : State} (hr : s.Ready) (op : OpName) (e : Err) :
    setEnum op none e s = .next (raise e s) := by
  simp only [setEnum, gate_ready hr]

theorem setIndex_inside {s : State} (hr : s.Ready) (hs : s.Sound) (op : OpName) {r : Int} (h : regMin ≤ r ∧ r ≤ regMax) :
    setIndex op r s = .next (s.issued op (leBytes 1 r.toNat)) := by
  have : ¬(r < regMin ∨ regMax < r) := by omega
  simp only [setIndex, gate_ready hr, if_neg this]
  exact issue_sound hs op (by simp [payloadCap])

theorem setIndex_outside {s : State} (hr : s.Ready) (op : OpName) {r : Int} (h : r < regMin ∨ regMax < r) :
    setIndex op r s = .next (raise .outOfRange s) := by
  simp only [setIndex, gate_ready hr, if_pos h]

theorem setQuantity_fits {s : State} (hr : s.Ready) (hs : s.Sound) (op : OpName) {x : Rat} {sc n : Nat}
    (hn : n ≤ payloadCap) (h0 : 0 ≤ x) (hw : roundRat (x * sc) < (256 ^ n : Nat)) :
    setQuantity op x sc n s =
      .next (State.issued { s with opr := BitVec.ofNat 32 (roundRat (x * sc)).toNat } op
        (leBytes n (roundRat (x * sc)).toNat)) := by
  simp only [setQuantity, gate_ready hr, withScale_fits _ h0 hw]
  exact issue_sound (s := { s with opr := BitVec.ofNat 32 (roundRat (x * sc)).toNat }) hs op (by simpa using hn)

theorem setQuantity_negative {s : State} (hr : s.Ready) (op : OpName) {x : Rat} (sc n : Nat) (h : x < 0) :
    setQuantity op x sc n s = .next (raise .invalidParameter s) := by
  simp only [setQuantity, gate_ready hr, withScale_negative sc n s _ h]

/-! ### The sequencer -/

/-- Everything the SFC's own step can do. -/
theorem sfcStep_cases (s : State) (blocked : Out) :
    (s.phase = .idle ∧ sfcStep s blocked = blocked) ∨
    (s.phase = .rx ∧ s.rxcnt < frameLen ∧ s.rxstream = [] ∧ sfcStep s blocked = blocked) ∨
    (∃ b rest, s.phase = .rx ∧ s.rxcnt < frameLen ∧ s.rxstream = b :: rest ∧
      sfcStep s blocked = .next (receive b rest s)) ∨
    (s.phase = .rx ∧ frameLen ≤ s.rxcnt ∧ sfcStep s blocked = complete s) := by
  unfold sfcStep
  cases hp : s.phase with
  | idle => exact .inl ⟨rfl, rfl⟩
  | rx =>
    by_cases hc : s.rxcnt < frameLen
    · cases hq : s.rxstream with
      | nil => exact .inr (.inl ⟨rfl, hc, rfl, by simp [hc]⟩)
      | cons b rest => exact .inr (.inr (.inl ⟨b, rest, rfl, hc, rfl, by simp [hc]⟩))
    · exact .inr (.inr (.inr ⟨rfl, by omega, by simp [hc]⟩))

/-- Everything the timeout event can do. -/
theorem timeoutEvent_cases (s : State) :
    (s.phase = .rx ∧ s.rxcnt < frameLen ∧ s.rawTxn = false ∧ timeoutEvent s = raise .transportTimeout s) ∨
    (s.phase = .rx ∧ s.rxcnt < frameLen ∧ s.rawTxn = true ∧
      timeoutEvent s = answer (.error .transportTimeout) (raise .transportTimeout s)) ∨
    (¬(s.phase = .rx ∧ s.rxcnt < frameLen) ∧ timeoutEvent s = s) := by
  unfold timeoutEvent
  by_cases h : s.phase = .rx ∧ s.rxcnt < frameLen
  · cases hr : s.rawTxn with
    | false => exact .inl ⟨h.1, h.2, rfl, by simp [h]⟩
    | true => exact .inr (.inl ⟨h.1, h.2, rfl, by simp [h]⟩)
  · exact .inr (.inr ⟨h, by simp only [if_neg h]⟩)

/-- Only a single-field query of kind none or composite has no result, and no table row is one (R142). -/
theorem fieldResult_none {d : Desc} {w : Nat} (h : fieldResult d w = none) : d.kind = .none ∨ d.kind = .composite := by
  unfold fieldResult at h
  split at h
  · cases h
  · cases h
  · split at h <;> cases h
  · split at h <;> cases h
  · exact .inl ‹_›
  · exact .inr ‹_›

/-- Everything a completion can do: hand back the raw bytes, raise what `DECODE` raises, deliver one result (with the
transient registers written first, for that layout), or stop on a latch that no table row gives. -/
theorem complete_cases (s : State) :
    (s.rawTxn = true ∧ complete s = .next (answer (.bytes s.rxbuf) { s with phase := .idle })) ∨
    (∃ c, s.rawTxn = false ∧ decodeFrame s.cfg.recog s.rxbuf = .error c ∧ complete s = .next (raise c s)) ∨
    (∃ p r, s.rawTxn = false ∧ decodeFrame s.cfg.recog s.rxbuf = .ok p ∧ complete s = .next (deliver r s)) ∨
    (∃ p, s.rawTxn = false ∧ decodeFrame s.cfg.recog s.rxbuf = .ok p ∧ s.cur.desc.dir = .query ∧
      s.cur.desc.layout = .tp ∧ complete s = .next (completeTransient p.payload s)) ∨
    (s.rawTxn = false ∧ s.cur.desc.dir = .query ∧ s.cur.desc.layout = .single ∧
      (s.cur.desc.kind = .none ∨ s.cur.desc.kind = .composite) ∧ complete s = .fault .noCompletion) := by
  cases hr : s.rawTxn with
  | true => exact .inl ⟨rfl, by simp [complete, hr]⟩
  | false =>
    cases hd : decodeFrame s.cfg.recog s.rxbuf with
    | error c => exact .inr (.inl ⟨c, rfl, rfl, by simp [complete, hr, hd]⟩)
    | ok p =>
      have hc : complete s = completeParsed p s := by simp [complete, hr, hd]
      cases hdir : s.cur.desc.dir with
      | set => exact .inr (.inr (.inl ⟨p, _, rfl, rfl, by rw [hc, completeParsed, hdir]⟩))
      | query =>
        cases hl : s.cur.desc.layout with
        | single =>
          cases hf : fieldResult s.cur.desc (memRead p.payload 0 s.cur.desc.width) with
          | some r => exact .inr (.inr (.inl ⟨p, r, rfl, rfl, by simp [hc, completeParsed, hdir, hl, completeSingle, hf]⟩))
          | none =>
            refine .inr (.inr (.inr (.inr ⟨rfl, rfl, rfl, fieldResult_none hf, ?_⟩)))
            simp [hc, completeParsed, hdir, hl, completeSingle, hf]
        | tp => exact .inr (.inr (.inr (.inl ⟨p, rfl, rfl, rfl, rfl, by simp [hc, completeParsed, hdir, hl]⟩)))
        | iv => exact .inr (.inr (.inl ⟨p, _, rfl, rfl, by rw [hc, completeParsed, hdir, hl]⟩))
        | pi => exact .inr (.inr (.inl ⟨p, _, rfl, rfl, by rw [hc, completeParsed, hdir, hl]⟩))

end Sys2Proof.Machine
end

