-- ==== Sys2Proof/Laws/PerInstr.lean ====
section
/-! SUPPORT. The per-instruction family EncodeLength: whatever frame the encoder gives an instruction has 26 bytes (30_encoding.md
R80, R91). One lemma for each constructor of Instr. -/

namespace Sys2Proof.Laws.EncodeLength

open Sys2Proof Sys2Proof.Machine

/-- The frame of `i`, if it has one, is 26 bytes long. -/
def Statement (i : Instr) : Prop :=
  ∀ (c : Config) (addr : Byte) (f : List Byte), c.Ok → encode c addr i = some f → f.length = frameLen

theorem request_length {c : Config} {op : OpName} {addr : Byte} {data : Option (List Byte)} {f : List Byte}
    (hd : ∀ d, data = some d → d.length ≤ payloadCap) (h : requestFrame c op addr data = some f) :
    f.length = frameLen := by
  cases data with
  | none => simp [requestFrame] at h
  | some d =>
    simp only [requestFrame, Option.map_some, Option.some.injEq] at h
    exact h ▸ frameBytes_length _ _ (hd d rfl)

theorem of_bytes {c : Config} {op : OpName} {addr : Byte} {d : List Byte} (hd : d.length ≤ payloadCap) (f : List Byte)
    (h : requestFrame c op addr (some d) = some f) : f.length = frameLen :=
  request_length (fun _ he => Option.some.inj he ▸ hd) h

theorem of_quantity {c : Config} {op : OpName} {addr : Byte} {x : Rat} {s n : Nat} (hn : n ≤ payloadCap) (f : List Byte)
    (h : requestFrame c op addr (quantityData c x s n) = some f) : f.length = frameLen := by
  refine request_length (fun d hd => ?_) h
  unfold quantityData at hd
  split at hd
  · simp only [Option.some.injEq] at hd; simpa [← hd] using hn
  · cases hd

theorem of_member {α : Type} {c : Config} {op : OpName} {addr : Byte} {o : Option α} {g : α → Byte} (f : List Byte)
    (h : requestFrame c op addr (o.map fun m => [g m]) = some f) : f.length = frameLen := by
  refine request_length (fun d hd => ?_) h
  obtain ⟨m, _, rfl⟩ := Option.map_eq_some_iff.mp hd
  simp [payloadCap]

theorem of_index {c : Config} {op : OpName} {addr : Byte} {r : Int} (f : List Byte)
    (h : requestFrame c op addr (indexData r) = some f) : f.length = frameLen := by
  refine request_length (fun d hd => ?_) h
  unfold indexData at hd
  split at hd
  · cases hd
  · simp only [Option.some.injEq] at hd; simp [← hd, payloadCap]

theorem of_setTransient {c : Config} {addr : Byte} {t : Text} {a ta b tb : Rat} {st : Text} (hc : c.Ok) (f : List Byte)
    (h : setTransientFrame c addr t a ta b tb st = some f) : f.length = frameLen := by
  unfold setTransientFrame at h
  split at h
  · refine request_length (fun d hd => ?_) h
    unfold transientData at hd
    split at hd
    · simp only [Option.some.injEq] at hd
      rw [← hd, tpPack_length]
      exact hc.tpInside
    · cases hd
  · cases h

theorem of_getTransient {c : Config} {addr : Byte} {t : Text} (f : List Byte)
    (h : getTransientFrame c addr t = some f) : f.length = frameLen := by
  unfold getTransientFrame at h
  split at h
  · exact of_bytes (by simp) f h
  · cases h


theorem setRemoteControl : ∀ x, Statement (.setRemoteControl x) :=
  fun _ => fun _ _ f _ h => of_bytes (by simp [payloadCap]) f h

theorem setLoadState : ∀ x, Statement (.setLoadState x) :=
  fun _ => fun _ _ f _ h => of_bytes (by simp [payloadCap]) f h

theorem setMaxVoltage : ∀ x, Statement (.setMaxVoltage x) :=
  fun _ => fun _ _ f _ h => of_quantity (by simp [payloadCap]) f h

theorem getMaxVoltage : Statement (.getMaxVoltage) :=
  fun _ _ f _ h => of_bytes (by simp) f h

theorem setMaxCurrent : ∀ x, Statement (.setMaxCurrent x) :=
  fun _ => fun _ _ f _ h => of_quantity (by simp [payloadCap]) f h

theorem getMaxCurrent : Statement (.getMaxCurrent) :=
  fun _ _ f _ h => of_bytes (by simp) f h

theorem setMaxPower : ∀ x, Statement (.setMaxPower x) :=
  fun _ => fun _ _ f _ h => of_quantity (by simp [payloadCap]) f h

theorem getMaxPower : Statement (.getMaxPower) :=
  fun _ _ f _ h => of_bytes (by simp) f h

theorem setMode : ∀ x, Statement (.setMode x) :=
  fun _ => fun _ _ f _ h => of_member f h

theorem getMode : Statement (.getMode) :=
  fun _ _ f _ h => of_bytes (by simp) f h

theorem setCCCurrent : ∀ x, Statement (.setCCCurrent x) :=
  fun _ => fun _ _ f _ h => of_quantity (by simp [payloadCap]) f h

theorem getCCCurrent : Statement (.getCCCurrent) :=
  fun _ _ f _ h => of_bytes (by simp) f h

theorem setCVVoltage : ∀ x, Statement (.setCVVoltage x) :=
  fun _ => fun _ _ f _ h => of_quantity (by simp [payloadCap]) f h

theorem getCVVoltage : Statement (.getCVVoltage) :=
  fun _ _ f _ h => of_bytes (by simp) f h

theorem setCWPower : ∀ x, Statement (.setCWPower x) :=
  fun _ => fun _ _ f _ h => of_quantity (by simp [payloadCap]) f h

theorem getCWPower : Statement (.getCWPower) :=
  fun _ _ f _ h => of_bytes (by simp) f h

theorem setCRResistance : ∀ x, Statement (.setCRResistance x) :=
  fun _ => fun _ _ f _ h => of_quantity (by simp [payloadCap]) f h

theorem getCRResistance : Statement (.getCRResistance) :=
  fun _ _ f _ h => of_bytes (by simp) f h

theorem setTransientCc : ∀ x y z u v w, Statement (.setTransientCc x y z u v w) :=
  fun _ _ _ _ _ _ => fun _ _ f hc h => of_setTransient hc f h

theorem getTransientCc : ∀ x, Statement (.getTransientCc x) :=
  fun _ => fun _ _ f _ h => of_getTransient f h

theorem setTransientCv : ∀ x y z u v w, Statement (.setTransientCv x y z u v w) :=
  fun _ _ _ _ _ _ => fun _ _ f hc h => of_setTransient hc f h

theorem getTransientCv : ∀ x, Statement (.getTransientCv x) :=
  fun _ => fun _ _ f _ h => of_getTransient f h

theorem setTransientCw : ∀ x y z u v w, Statement (.setTransientCw x y z u v w) :=
  fun _ _ _ _ _ _ => fun _ _ f hc h => of_setTransient hc f h

theorem getTransientCw : ∀ x, Statement (.getTransientCw x) :=
  fun _ => fun _ _ f _ h => of_getTransient f h

theorem setTransientCr : ∀ x y z u v w, Statement (.setTransientCr x y z u v w) :=
  fun _ _ _ _ _ _ => fun _ _ f hc h => of_setTransient hc f h

theorem getTransientCr : ∀ x, Statement (.getTransientCr x) :=
  fun _ => fun _ _ f _ h => of_getTransient f h

theorem setBatteryTestVoltage : ∀ x, Statement (.setBatteryTestVoltage x) :=
  fun _ => fun _ _ f _ h => of_quantity (by simp [payloadCap]) f h

theorem getBatteryTestVoltage : Statement (.getBatteryTestVoltage) :=
  fun _ _ f _ h => of_bytes (by simp) f h

theorem setLoadOnTimer : ∀ x, Statement (.setLoadOnTimer x) :=
  fun _ => fun _ _ f _ h => of_quantity (by simp [payloadCap]) f h

theorem getLoadOnTimer : Statement (.getLoadOnTimer) :=
  fun _ _ f _ h => of_bytes (by simp) f h

theorem setLoadOnTimerState : ∀ x, Statement (.setLoadOnTimerState x) :=
  fun _ => fun _ _ f _ h => of_bytes (by simp [payloadCap]) f h

theorem getLoadOnTimerState : Statement (.getLoadOnTimerState) :=
  fun _ _ f _ h => of_bytes (by simp) f h

theorem setTriggerSource : ∀ x, Statement (.setTriggerSource x) :=
  fun _ => fun _ _ f _ h => of_member f h

theorem getTriggerSource : Statement (.getTriggerSource) :=
  fun _ _ f _ h => of_bytes (by simp) f h

theorem triggerLoad : Statement (.triggerLoad) :=
  fun _ _ f _ h => of_bytes (by simp) f h

theorem saveSettings : ∀ x, Statement (.saveSettings x) :=
  fun _ => fun _ _ f _ h => of_index f h

theorem recallSettings : ∀ x, Statement (.recallSettings x) :=
  fun _ => fun _ _ f _ h => of_index f h

theorem setFunction : ∀ x, Statement (.setFunction x) :=
  fun _ => fun _ _ f _ h => of_member f h

theorem getFunction : Statement (.getFunction) :=
  fun _ _ f _ h => of_bytes (by simp) f h

theorem getInputValues : Statement (.getInputValues) :=
  fun _ _ f _ h => of_bytes (by simp) f h

theorem getProductInformation : Statement (.getProductInformation) :=
  fun _ _ f _ h => of_bytes (by simp) f h

theorem statusReply : ∀ x y, Statement (.statusReply x y) :=
  fun _ _ => fun _ _ _ _ h => Option.some.inj h ▸ frameBytes_length _ _ (by simp [payloadCap])

theorem openSession : ∀ x y z, Statement (.openSession x y z) :=
  fun _ _ _ => fun _ _ _ _ h => by cases h

theorem closeSession : Statement (.closeSession) :=
  fun _ _ _ _ h => by cases h

theorem csum8 : ∀ x, Statement (.csum8 x) :=
  fun _ => fun _ _ _ _ h => by cases h

theorem csumOk : ∀ x, Statement (.csumOk x) :=
  fun _ => fun _ _ _ _ h => by cases h

theorem hdrDet : ∀ x, Statement (.hdrDet x) :=
  fun _ => fun _ _ _ _ h => by cases h

theorem encInt : ∀ x y, Statement (.encInt x y) :=
  fun _ _ => fun _ _ _ _ h => by cases h

theorem decInt : ∀ x, Statement (.decInt x) :=
  fun _ => fun _ _ _ _ h => by cases h

theorem encodeFrame : ∀ x y z, Statement (.encodeFrame x y z) :=
  fun _ _ _ => fun _ _ _ _ h => by cases h

theorem decodeFrame : ∀ x, Statement (.decodeFrame x) :=
  fun _ => fun _ _ _ _ h => by cases h

theorem statusMap : ∀ x, Statement (.statusMap x) :=
  fun _ => fun _ _ _ _ h => by cases h

theorem lookup : ∀ x, Statement (.lookup x) :=
  fun _ => fun _ _ _ _ h => by cases h

theorem scale : ∀ x y z, Statement (.scale x y z) :=
  fun _ _ _ => fun _ _ _ _ h => by cases h

theorem unscale : ∀ x y, Statement (.unscale x y) :=
  fun _ _ => fun _ _ _ _ h => by cases h

theorem build : ∀ x y, Statement (.build x y) :=
  fun _ _ => fun _ _ _ _ h => by cases h

theorem tpEnc : Statement (.tpEnc) :=
  fun _ _ _ _ h => by cases h

theorem tpDec : ∀ x, Statement (.tpDec x) :=
  fun _ => fun _ _ _ _ h => by cases h

theorem fwText : ∀ x y, Statement (.fwText x y) :=
  fun _ _ => fun _ _ _ _ h => by cases h

theorem transact : ∀ x, Statement (.transact x) :=
  fun _ => fun _ _ _ _ h => by cases h

end Sys2Proof.Laws.EncodeLength
end

