-- ==== Sys2Proof/Tests/Slice0.lean ====
section
/-! SUPPORT. Small tests, each a named theorem. Expected values are those of spec/95_test_vectors.md (parts 1 and 2) unless a comment
names a rule; the witnesses at the end meet the hypotheses of the statements in Certificates/Slice0/Obligations.lean. -/

namespace Sys2Proof.Tests

open Sys2Proof Sys2Proof.Machine

-- One theorem at a time: each waits for the kernel, and many at once would need a thread each.
set_option Elab.async false

/-! ### Helpers -/

/-- 25 bytes (the given ones, then zeros) and the checksum as the spec prints it. -/
def frame (l : List Byte) (k : Byte) : List Byte := l ++ List.replicate (25 - l.length) 0 ++ [k]

/-- After `open` with the default address, nothing in flight. -/
def ready : State := { State.reset with sess := .opened }

/-- The same under the given OVERFLOW and CASEFOLD. -/
def readyWith (o : Overflow) (f : Bool) : State := { ready with cfg := { defaultConfig with overflow := o, caseFold := f } }

/-- A transaction of `op` whose 26 reply bytes are in. -/
def replied (op : OpName) (reply : List Byte) : State :=
  { ready with phase := .rx, rxcnt := 26, rxbuf := reply, cur := { op := op, desc := lookup defaultConfig op } }

/-- The next state, if there is one. -/
def after {φ ρ : Type} : Host.Outcome State φ ρ → Option State
  | .next t => some t
  | .fault _ | .refused _ => none

/-- The refusal, if it is one. -/
def refusal {σ φ : Type} : Host.Outcome σ φ Refusal → Option Refusal
  | .refused r => some r
  | .next _ | .fault _ => none

/-- The result an instruction or a step leaves in RES. -/
def result (x : Out) : Option Result := (after x).map State.res

/-- What a primitive answers. -/
def answered (i : Instr) (s : State) : Option Ret := (after (exec i s)).map State.ret

/-- A word of the spec decodes to its operation, is what the encoder writes for it, and is what the operation sends. -/
def word (i : Instr) (f : List Byte) : Bool :=
  decide (decode defaultConfig f = .ok i) && decide (encode defaultConfig 0x00 i = some f) &&
    decide ((after (exec i ready)).map (fun t => (t.phase, t.txbuf, t.txstream)) = some (.rx, f, f))

/-- A reply to `op` completes with `r`. -/
def completes (op : OpName) (reply : List Byte) (r : Result) : Bool :=
  decide (result (step (replied op reply)) = some r)

/-- An operation that fails its local checks with `e`: no frame, PHASE IDLE, under both values of CASEFOLD. -/
def failsWith (i : Instr) (e : Err) : Bool :=
  [true, false].all fun f =>
    decide ((after (exec i (readyWith .fault f))).map (fun t => (t.res, t.phase, t.txstream)) = some (.error e, .idle, []))

/-! ### WellFormed refuses an ill-formed term of each check -/

theorem test_wf_modeOfAnotherRow : ([.setTransientCc "cv".toList 0 0 0 0 [], .getTransientCc "CV".toList,
    .setTransientCv "cc".toList 0 0 0 0 [], .getTransientCv "cw".toList, .setTransientCw "cr".toList 0 0 0 0 [],
    .getTransientCw "cc".toList, .setTransientCr "cc".toList 0 0 0 0 [], .getTransientCr "Cw".toList] : List Instr).all
      (fun i => !i.wellFormed defaultConfig) = true := by decide +kernel
theorem test_wf_address : (Instr.openSession [] 9600 0xFF).wellFormed defaultConfig = false := by decide
theorem test_wf_encodeAddress : (Instr.encodeFrame 0x20 0xFF []).wellFormed defaultConfig = false := by decide
theorem test_wf_encodeOpcode : (Instr.encodeFrame 0x6D 0x00 []).wellFormed defaultConfig = false := by decide
theorem test_wf_build :
    ([{ opcode := 0x13, width := 1, scale := 1, dir := .set, kind := .flag, layout := .single },
      { opcode := 0x20, width := 3, scale := 1, dir := .set, kind := .flag, layout := .single },
      { opcode := 0x20, width := 1, scale := 0, dir := .set, kind := .flag, layout := .single }] : List Desc).all
      (fun d => !(Instr.build d []).wellFormed defaultConfig) = true := by decide
theorem test_wf_tpDec : (Instr.tpDec (List.replicate 12 0)).wellFormed defaultConfig = false := by decide
theorem test_wf_accepts : ([.getTransientCc "cc".toList, .getTransientCv "bogus".toList, .openSession [] 9600 0xFE,
    .encInt (-1) .four, .encodeFrame 0x6C 0xFE [], .tpDec (List.replicate 13 0), .setMode "bogus".toList] :
      List Instr).all (Instr.wellFormed defaultConfig) = true := by decide +kernel

/-! ### Words: decoded, encoded and sent -/

theorem test_words_front_end : ([
    ((.setRemoteControl true), frame [0xAA, 0x00, 0x20, 0x01] 0xCB),
    ((.setRemoteControl false), frame [0xAA, 0x00, 0x20] 0xCA),
    ((.setLoadState true), frame [0xAA, 0x00, 0x21, 0x01] 0xCC),
    ((.setLoadState false), frame [0xAA, 0x00, 0x21] 0xCB)
  ] : List (Instr × List Byte)).all (fun p => word p.1 p.2) = true := by decide +kernel

theorem test_words_limits : ([
    ((.setMaxVoltage (25 / 2)), frame [0xAA, 0x00, 0x22, 0xD4, 0x30] 0xD0),
    (.getMaxVoltage, frame [0xAA, 0x00, 0x23] 0xCD),
    ((.setMaxCurrent 3000), frame [0xAA, 0x00, 0x24, 0x30, 0x75] 0x73),
    (.getMaxCurrent, frame [0xAA, 0x00, 0x25] 0xCF),
    ((.setMaxPower 150), frame [0xAA, 0x00, 0x26, 0xF0, 0x49, 0x02] 0x0B),
    (.getMaxPower, frame [0xAA, 0x00, 0x27] 0xD1)
  ] : List (Instr × List Byte)).all (fun p => word p.1 p.2) = true := by decide +kernel

theorem test_words_mode : ([
    ((.setMode "cc".toList), frame [0xAA, 0x00, 0x28] 0xD2),
    ((.setMode "cv".toList), frame [0xAA, 0x00, 0x28, 0x01] 0xD3),
    ((.setMode "cw".toList), frame [0xAA, 0x00, 0x28, 0x02] 0xD4),
    ((.setMode "cr".toList), frame [0xAA, 0x00, 0x28, 0x03] 0xD5),
    (.getMode, frame [0xAA, 0x00, 0x29] 0xD3)
  ] : List (Instr × List Byte)).all (fun p => word p.1 p.2) = true := by decide +kernel

theorem test_words_set_points : ([
    ((.setCCCurrent 5000), frame [0xAA, 0x00, 0x2A, 0x50, 0xC3] 0xE7),
    ((.setCCCurrent 0), frame [0xAA, 0x00, 0x2A] 0xD4),
    ((.setCCCurrent (858993459 / 2)), frame [0xAA, 0x00, 0x2A, 0xFF, 0xFF, 0xFF, 0xFF] 0xD0),
    (.getCCCurrent, frame [0xAA, 0x00, 0x2B] 0xD5),
    ((.setCVVoltage 5), frame [0xAA, 0x00, 0x2C, 0x88, 0x13] 0x71),
    (.getCVVoltage, frame [0xAA, 0x00, 0x2D] 0xD7),
    ((.setCWPower (51 / 2)), frame [0xAA, 0x00, 0x2E, 0x9C, 0x63] 0xD7),
    (.getCWPower, frame [0xAA, 0x00, 0x2F] 0xD9),
    ((.setCRResistance 10), frame [0xAA, 0x00, 0x30, 0x10, 0x27] 0x11),
    (.getCRResistance, frame [0xAA, 0x00, 0x31] 0xDB)
  ] : List (Instr × List Byte)).all (fun p => word p.1 p.2) = true := by decide +kernel

theorem test_words_battery_and_timer : ([
    ((.setBatteryTestVoltage 3), frame [0xAA, 0x00, 0x4E, 0xB8, 0x0B] 0xBB),
    (.getBatteryTestVoltage, frame [0xAA, 0x00, 0x4F] 0xF9),
    ((.setLoadOnTimer 600), frame [0xAA, 0x00, 0x50, 0x58, 0x02] 0x54),
    ((.setLoadOnTimer 65535), frame [0xAA, 0x00, 0x50, 0xFF, 0xFF] 0xF8),
    (.getLoadOnTimer, frame [0xAA, 0x00, 0x51] 0xFB),
    ((.setLoadOnTimerState true), frame [0xAA, 0x00, 0x52, 0x01] 0xFD),
    ((.setLoadOnTimerState false), frame [0xAA, 0x00, 0x52] 0xFC),
    (.getLoadOnTimerState, frame [0xAA, 0x00, 0x53] 0xFD)
  ] : List (Instr × List Byte)).all (fun p => word p.1 p.2) = true := by decide +kernel

theorem test_words_trigger : ([
    ((.setTriggerSource "immediate".toList), frame [0xAA, 0x00, 0x58] 0x02),
    ((.setTriggerSource "external".toList), frame [0xAA, 0x00, 0x58, 0x01] 0x03),
    ((.setTriggerSource "bus".toList), frame [0xAA, 0x00, 0x58, 0x02] 0x04),
    (.getTriggerSource, frame [0xAA, 0x00, 0x59] 0x03),
    (.triggerLoad, frame [0xAA, 0x00, 0x5A] 0x04)
  ] : List (Instr × List Byte)).all (fun p => word p.1 p.2) = true := by decide +kernel

theorem test_words_slots : ([
    ((.saveSettings 1), frame [0xAA, 0x00, 0x5B, 0x01] 0x06),
    ((.saveSettings 25), frame [0xAA, 0x00, 0x5B, 0x19] 0x1E),
    ((.recallSettings 1), frame [0xAA, 0x00, 0x5C, 0x01] 0x07),
    ((.recallSettings 25), frame [0xAA, 0x00, 0x5C, 0x19] 0x1F)
  ] : List (Instr × List Byte)).all (fun p => word p.1 p.2) = true := by decide +kernel

theorem test_words_function : ([
    ((.setFunction "fixed".toList), frame [0xAA, 0x00, 0x5D] 0x07),
    ((.setFunction "short".toList), frame [0xAA, 0x00, 0x5D, 0x01] 0x08),
    ((.setFunction "transient".toList), frame [0xAA, 0x00, 0x5D, 0x02] 0x09),
    ((.setFunction "battery".toList), frame [0xAA, 0x00, 0x5D, 0x04] 0x0B),
    (.getFunction, frame [0xAA, 0x00, 0x5E] 0x08)
  ] : List (Instr × List Byte)).all (fun p => word p.1 p.2) = true := by decide +kernel

theorem test_words_transient : ([
    ((.setTransientCc "cc".toList 1000 (1 / 2) 2000 (1 / 4) "pulse".toList), frame [0xAA, 0x00, 0x32, 0x10, 0x27, 0x00, 0x00, 0xF4, 0x01, 0x20, 0x4E, 0x00, 0x00, 0xFA, 0x00, 0x01] 0x71),
    ((.getTransientCc "cc".toList), frame [0xAA, 0x00, 0x33] 0xDD),
    ((.setTransientCv "cv".toList 5 1 12 2 "continuous".toList), frame [0xAA, 0x00, 0x34, 0x88, 0x13, 0x00, 0x00, 0xE8, 0x03, 0xE0, 0x2E, 0x00, 0x00, 0xD0, 0x07] 0x49),
    ((.getTransientCv "cv".toList), frame [0xAA, 0x00, 0x35] 0xDF),
    ((.setTransientCw "cw".toList 10 (1 / 10) 20 (1 / 5) "toggled".toList), frame [0xAA, 0x00, 0x36, 0x10, 0x27, 0x00, 0x00, 0x64, 0x00, 0x20, 0x4E, 0x00, 0x00, 0xC8, 0x00, 0x02] 0xB3),
    ((.getTransientCw "cw".toList), frame [0xAA, 0x00, 0x37] 0xE1),
    ((.setTransientCr "cr".toList 10 (1 / 100) 100 (13107 / 200) "continuous".toList), frame [0xAA, 0x00, 0x38, 0x10, 0x27, 0x00, 0x00, 0x0A, 0x00, 0xA0, 0x86, 0x01, 0x00, 0xFF, 0xFF] 0x48),
    ((.getTransientCr "cr".toList), frame [0xAA, 0x00, 0x39] 0xE3),
    ((.setTransientCc "cc".toList 0 0 0 0 "continuous".toList), frame [0xAA, 0x00, 0x32] 0xDC)
  ] : List (Instr × List Byte)).all (fun p => word p.1 p.2) = true := by decide +kernel

theorem test_words_composite : ([
    (.getInputValues, frame [0xAA, 0x00, 0x5F] 0x09),
    (.getProductInformation, frame [0xAA, 0x00, 0x6A] 0x14)
  ] : List (Instr × List Byte)).all (fun p => word p.1 p.2) = true := by decide +kernel

/-- Rows the vectors above leave out: an address other than 0, and the status frame (90_conflicts.md C2; 95 2.3, 2.5). -/
theorem test_word_otherAddress : decode defaultConfig (frame [0xAA, 0x05, 0x2A, 0x50, 0xC3] 0xEC) = .ok (.setCCCurrent 5000) ∧
    encode defaultConfig 0x05 (.setCCCurrent 5000) = some (frame [0xAA, 0x05, 0x2A, 0x50, 0xC3] 0xEC) := by decide +kernel
theorem test_word_status : decode defaultConfig (frame [0xAA, 0x00, 0x12, 0x80] 0x3C) = .ok (.statusReply 0x00 0x80) ∧
    encode defaultConfig 0x00 (.statusReply 0x00 0x80) = some (frame [0xAA, 0x00, 0x12, 0x80] 0x3C) := by decide +kernel

/-- Frames that encode no operation: too short, another header, a hole of the opcode range (R88), a flag and an enumeration
byte without a member (R82, R85). -/
theorem test_decode_rejects :
    decode defaultConfig (List.replicate 25 0xAA) = .error .length ∧
    decode defaultConfig (frame [0xAB, 0x00, 0x20] 0xCB) = .error .header ∧
    decode defaultConfig (frame [0xAA, 0x00, 0x3A] 0xE4) = .error (.noOperation 0x3A) ∧
    decode defaultConfig (frame [0xAA, 0x00, 0x20, 0x02] 0xCC) = .error (.noMember 0x02) ∧
    decode defaultConfig (frame [0xAA, 0x00, 0x5D, 0x03] 0x0A) = .error (.noMember 0x03) := by decide +kernel

/-- The host's numbering: AA 00 2A 50 C3, byte 0 in the low bits. -/
theorem test_tableWord : decodeTableWord 208 0xC3502A00AA = some (.setCCCurrent 5000) ∧
    decodeTableWord 24 0x2900AA = some .getMode ∧
    ((after (step (State.reset.withFetchWord 24 0x2900AA))).map State.txbuf) = some (frame [0xAA, 0x00, 0x29] 0xD3) := by
  decide +kernel

/-! ### Completions -/

theorem test_replies_front_end : ([
    (.setRemoteControl, frame [0xAA, 0x00, 0x12, 0x80] 0x3C, .outcome .success),
    (.setLoadState, frame [0xAA, 0x00, 0x12, 0x80] 0x3C, .outcome .success),
    (.setLoadState, frame [0xAA, 0x00, 0x12, 0xB0] 0x6C, .outcome .commandNotExecutable)
  ] : List (OpName × List Byte × Result)).all (fun p => completes p.1 p.2.1 p.2.2) = true := by decide +kernel

theorem test_replies_limits : ([
    (.setMaxVoltage, frame [0xAA, 0x00, 0x12, 0x80] 0x3C, .outcome .success),
    (.getMaxVoltage, frame [0xAA, 0x00, 0x23, 0xD4, 0x30] 0xD1, .value (.number (25 / 2))),
    (.setMaxCurrent, frame [0xAA, 0x00, 0x12, 0x80] 0x3C, .outcome .success),
    (.getMaxCurrent, frame [0xAA, 0x00, 0x25, 0x30, 0x75] 0x74, .value (.number 3000)),
    (.setMaxPower, frame [0xAA, 0x00, 0x12, 0x80] 0x3C, .outcome .success),
    (.getMaxPower, frame [0xAA, 0x00, 0x27, 0xF0, 0x49, 0x02] 0x0C, .value (.number 150))
  ] : List (OpName × List Byte × Result)).all (fun p => completes p.1 p.2.1 p.2.2) = true := by decide +kernel

theorem test_replies_mode : ([
    (.setMode, frame [0xAA, 0x00, 0x12, 0x80] 0x3C, .outcome .success),
    (.getMode, frame [0xAA, 0x00, 0x29] 0xD3, .value (.text "cc".toList)),
    (.getMode, frame [0xAA, 0x00, 0x29, 0x01] 0xD4, .value (.text "cv".toList)),
    (.getMode, frame [0xAA, 0x00, 0x29, 0x02] 0xD5, .value (.text "cw".toList)),
    (.getMode, frame [0xAA, 0x00, 0x29, 0x03] 0xD6, .value (.text "cr".toList)),
    (.getMode, frame [0xAA, 0x00, 0x29, 0x04] 0xD7, .error (.unmappedCode 4)),
    (.getMode, frame [0xAA, 0x00, 0x29, 0x07] 0xDA, .error (.unmappedCode 7)),
    (.getMode, frame [0xAA, 0x00, 0x12, 0x90] 0x4C, .error (.unmappedCode 0x90))
  ] : List (OpName × List Byte × Result)).all (fun p => completes p.1 p.2.1 p.2.2) = true := by decide +kernel

theorem test_replies_set_points : ([
    (.setCCCurrent, frame [0xAA, 0x00, 0x12, 0x80] 0x3C, .outcome .success),
    (.setCCCurrent, frame [0xAA, 0x00, 0x12, 0xA0] 0x5C, .outcome .invalidParameterValue),
    (.getCCCurrent, frame [0xAA, 0x00, 0x2B, 0x50, 0xC3] 0xE8, .value (.number 5000)),
    (.getCCCurrent, frame [0xAA, 0x00, 0x2B, 0x01] 0xD6, .value (.number (1/10))),
    (.getCCCurrent, frame [0xAA, 0x00, 0x12, 0x80] 0x3C, .value (.number (64/5))),
    (.setCVVoltage, frame [0xAA, 0x00, 0x12, 0x80] 0x3C, .outcome .success),
    (.getCVVoltage, frame [0xAA, 0x00, 0x2D, 0x88, 0x13] 0x72, .value (.number 5)),
    (.setCWPower, frame [0xAA, 0x00, 0x12, 0x80] 0x3C, .outcome .success),
    (.getCWPower, frame [0xAA, 0x00, 0x2F, 0x9C, 0x63] 0xD8, .value (.number (51/2))),
    (.setCRResistance, frame [0xAA, 0x00, 0x12, 0x80] 0x3C, .outcome .success),
    (.getCRResistance, frame [0xAA, 0x00, 0x31, 0x10, 0x27] 0x12, .value (.number 10))
  ] : List (OpName × List Byte × Result)).all (fun p => completes p.1 p.2.1 p.2.2) = true := by decide +kernel

theorem test_replies_battery_and_timer : ([
    (.setBatteryTestVoltage, frame [0xAA, 0x00, 0x12, 0x80] 0x3C, .outcome .success),
    (.getBatteryTestVoltage, frame [0xAA, 0x00, 0x4F, 0xB8, 0x0B] 0xBC, .value (.number 3)),
    (.setLoadOnTimer, frame [0xAA, 0x00, 0x12, 0x80] 0x3C, .outcome .success),
    (.getLoadOnTimer, frame [0xAA, 0x00, 0x51, 0x58, 0x02] 0x55, .value (.number 600)),
    (.getLoadOnTimer, frame [0xAA, 0x00, 0x51, 0x58, 0x02, 0x99] 0xEE, .value (.number 600)),
    (.setLoadOnTimerState, frame [0xAA, 0x00, 0x12, 0x80] 0x3C, .outcome .success),
    (.getLoadOnTimerState, frame [0xAA, 0x00, 0x53, 0x01] 0xFE, .value (.flag true)),
    (.getLoadOnTimerState, frame [0xAA, 0x00, 0x53] 0xFD, .value (.flag false)),
    (.getLoadOnTimerState, frame [0xAA, 0x00, 0x53, 0x02] 0xFF, .error (.unmappedCode 2))
  ] : List (OpName × List Byte × Result)).all (fun p => completes p.1 p.2.1 p.2.2) = true := by decide +kernel

theorem test_replies_trigger : ([
    (.setTriggerSource, frame [0xAA, 0x00, 0x12, 0x80] 0x3C, .outcome .success),
    (.getTriggerSource, frame [0xAA, 0x00, 0x59] 0x03, .value (.text "immediate".toList)),
    (.getTriggerSource, frame [0xAA, 0x00, 0x59, 0x01] 0x04, .value (.text "external".toList)),
    (.getTriggerSource, frame [0xAA, 0x00, 0x59, 0x02] 0x05, .value (.text "bus".toList)),
    (.getTriggerSource, frame [0xAA, 0x00, 0x59, 0x03] 0x06, .error (.unmappedCode 3)),
    (.triggerLoad, frame [0xAA, 0x00, 0x12, 0x80] 0x3C, .outcome .success),
    (.triggerLoad, frame [0xAA, 0x00, 0x12, 0xB0] 0x6C, .outcome .commandNotExecutable)
  ] : List (OpName × List Byte × Result)).all (fun p => completes p.1 p.2.1 p.2.2) = true := by decide +kernel

theorem test_replies_slots : ([
    (.saveSettings, frame [0xAA, 0x00, 0x12, 0x80] 0x3C, .outcome .success),
    (.recallSettings, frame [0xAA, 0x00, 0x12, 0x80] 0x3C, .outcome .success)
  ] : List (OpName × List Byte × Result)).all (fun p => completes p.1 p.2.1 p.2.2) = true := by decide +kernel

theorem test_replies_function : ([
    (.setFunction, frame [0xAA, 0x00, 0x12, 0x80] 0x3C, .outcome .success),
    (.getFunction, frame [0xAA, 0x00, 0x5E] 0x08, .value (.text "fixed".toList)),
    (.getFunction, frame [0xAA, 0x00, 0x5E, 0x01] 0x09, .value (.text "short".toList)),
    (.getFunction, frame [0xAA, 0x00, 0x5E, 0x02] 0x0A, .value (.text "transient".toList)),
    (.getFunction, frame [0xAA, 0x00, 0x5E, 0x04] 0x0C, .value (.text "battery".toList)),
    (.getFunction, frame [0xAA, 0x00, 0x5E, 0x03] 0x0B, .error (.unmappedCode 3)),
    (.getFunction, frame [0xAA, 0x00, 0x5E, 0x05] 0x0D, .error (.unmappedCode 5))
  ] : List (OpName × List Byte × Result)).all (fun p => completes p.1 p.2.1 p.2.2) = true := by decide +kernel

theorem test_replies_transient : ([
    ((.setTransient .cc), frame [0xAA, 0x00, 0x12, 0x80] 0x3C, .outcome .success),
    ((.getTransient .cc), frame [0xAA, 0x00, 0x33, 0x10, 0x27, 0x00, 0x00, 0xF4, 0x01, 0x20, 0x4E, 0x00, 0x00, 0xFA, 0x00, 0x01] 0x72,
      .value (.transient 1000 (1 / 2) 2000 (1 / 4) "pulse".toList)),
    ((.setTransient .cv), frame [0xAA, 0x00, 0x12, 0x80] 0x3C, .outcome .success),
    ((.getTransient .cv), frame [0xAA, 0x00, 0x35, 0x88, 0x13, 0x00, 0x00, 0xE8, 0x03, 0xE0, 0x2E, 0x00, 0x00, 0xD0, 0x07] 0x4A,
      .value (.transient 5 1 12 2 "continuous".toList)),
    ((.setTransient .cw), frame [0xAA, 0x00, 0x12, 0x80] 0x3C, .outcome .success),
    ((.getTransient .cw), frame [0xAA, 0x00, 0x37, 0x10, 0x27, 0x00, 0x00, 0x64, 0x00, 0x20, 0x4E, 0x00, 0x00, 0xC8, 0x00, 0x02] 0xB4,
      .value (.transient 10 (1 / 10) 20 (1 / 5) "toggled".toList)),
    ((.setTransient .cr), frame [0xAA, 0x00, 0x12, 0x80] 0x3C, .outcome .success),
    ((.getTransient .cr), frame [0xAA, 0x00, 0x39, 0x10, 0x27, 0x00, 0x00, 0x0A, 0x00, 0xA0, 0x86, 0x01, 0x00, 0xFF, 0xFF] 0x49,
      .value (.transient 10 (1 / 100) 100 (13107 / 200) "continuous".toList)),
    ((.getTransient .cc), frame [0xAA, 0x00, 0x33, 0x10, 0x27, 0x00, 0x00, 0xF4, 0x01, 0x20, 0x4E, 0x00, 0x00, 0xFA, 0x00, 0x03] 0x74,
      .error (.unmappedCode 3)),
    ((.getTransient .cc), frame [0xAA, 0x00, 0x33, 0x10, 0x27, 0x00, 0x00, 0xF4, 0x01, 0x20, 0x4E, 0x00, 0x00, 0xFA, 0x00, 0x01, 0x77] 0xE9,
      .value (.transient 1000 (1 / 2) 2000 (1 / 4) "pulse".toList))
  ] : List (OpName × List Byte × Result)).all (fun p => completes p.1 p.2.1 p.2.2) = true := by decide +kernel

theorem test_replies_composite : ([
    (.getInputValues, frame [0xAA, 0x00, 0x5F, 0xE0, 0x2E, 0x00, 0x00, 0x98, 0x3A, 0x00, 0x00, 0x50, 0x46, 0x00, 0x00, 0x09, 0x01] 0x89,
      .value (.inputValues 12 1500 18 0x09 0x01)),
    (.getInputValues, frame [0xAA, 0x00, 0x5F, 0xFF, 0xFF, 0xFF, 0xFF, 0x01, 0x00, 0x00, 0x00, 0x00, 0x00, 0x00, 0x00, 0xFF] 0x05,
      .value (.inputValues (858993459 / 200) (1 / 10) 0 0xFF 0x00)),
    (.getProductInformation, frame [0xAA, 0x00, 0x6A, 0x38, 0x35, 0x30, 0x30, 0x00, 0x29, 0x01, 0x30, 0x31, 0x32, 0x33, 0x34, 0x35, 0x36, 0x37, 0x38, 0x39] 0x18,
      .value (.productInformation [0x38, 0x35, 0x30, 0x30, 0x00] 0x01 0x29 "1.29".toList
        [0x30, 0x31, 0x32, 0x33, 0x34, 0x35, 0x36, 0x37, 0x38, 0x39])),
    (.getProductInformation, frame [0xAA, 0x00, 0x6A, 0x38, 0x35, 0x31, 0x30, 0x00, 0x0A, 0x10, 0x41, 0x41, 0x41, 0x41, 0x41, 0x41, 0x41, 0x41, 0x41, 0x41] 0x86,
      .value (.productInformation [0x38, 0x35, 0x31, 0x30, 0x00] 0x10 0x0A "10.a".toList
        (List.replicate 10 0x41)))
  ] : List (OpName × List Byte × Result)).all (fun p => completes p.1 p.2.1 p.2.2) = true := by decide +kernel

/-! ### Local failures (95 2.6, 2.8, 2.9), for either CASEFOLD -/

theorem test_unknownStrings : ([(.setMode "bogus".toList, .unknownMode), (.setMode [], .unknownMode),
    (.setMode "c c".toList, .unknownMode), (.setFunction "list".toList, .unknownFunction),
    (.setTriggerSource "manual".toList, .invalidParameter), (.getTransientCc "dc".toList, .unknownMode),
    (.setTransientCc "xx".toList (-1) (-1) (-1) (-1) "bogus".toList, .unknownMode)] : List (Instr × Err)).all
      (fun p => failsWith p.1 p.2) = true := by decide +kernel

theorem test_badOperands : ([(.setCCCurrent (-1), .invalidParameter), (.setMaxVoltage (-1 / 1000), .invalidParameter),
    (.setLoadOnTimer (-1), .invalidParameter), (.setCCCurrent (2147483648 / 5), .invalidParameter),
    (.setMaxVoltage (536870912 / 125), .invalidParameter), (.setLoadOnTimer 65536, .invalidParameter),
    (.saveSettings 0, .outOfRange), (.saveSettings 26, .outOfRange), (.saveSettings (-3), .outOfRange),
    (.saveSettings 256, .outOfRange), (.recallSettings 0, .outOfRange), (.recallSettings 26, .outOfRange),
    (.setTransientCc "cc".toList (-1) (1 / 2) 2000 (1 / 4) "bogus".toList, .invalidParameter),
    (.setTransientCc "cc".toList 1000 (8192 / 125) 2000 (1 / 4) "pulse".toList, .invalidParameter),
    (.setTransientCc "cc".toList 1000 (1 / 2) 2000 (1 / 4) "burst".toList, .invalidParameter)] : List (Instr × Err)).all
      (fun p => failsWith p.1 p.2) = true := by decide +kernel

/-- R86 (c), R115: what CASEFOLD and OVERFLOW change. -/
theorem test_caseFold : result (exec (.setMode "CV".toList) (readyWith .fault false)) = some (.error .unknownMode) ∧
    (after (exec (.setMode "CV".toList) (readyWith .fault true))).map State.txbuf =
      some (frame [0xAA, 0x00, 0x28, 0x01] 0xD3) := by decide +kernel
theorem test_truncate : (after (exec (.setLoadOnTimer 65537) (readyWith .truncate false))).map (fun t => (t.txbuf, t.opr)) =
    some (frame [0xAA, 0x00, 0x50, 0x01] 0xFB, 1) := by decide +kernel

/-- R29, R28: the staging registers and OPR after a `setTransient`. -/
theorem test_transientRegisters :
    (after (exec (.setTransientCw "cw".toList 10 (1 / 10) 20 (1 / 5) "toggled".toList) ready)).map
      (fun t => (t.tpMode, t.tpA, t.tpTA, t.tpB, t.tpTB, t.tpStyle, t.opr)) =
    some (2, 10000, 100, 20000, 200, 2, 200) := by decide +kernel

/-! ### Primitives (95 2.1 to 2.7) -/

theorem test_csum8 :
    answered (.csum8 ⟨(([0xAA, 0x00, 0x2A, 0x50, 0xC3] : List Byte) ++ List.replicate 20 0).toArray, by decide⟩) State.reset =
      some (.byte 0xE7) ∧
    answered (.csum8 ⟨(List.replicate 25 (0xFF : Byte)).toArray, by decide⟩) State.reset = some (.byte 0xE7) := by decide
theorem test_csumOk :
    answered (.csumOk ⟨(frame [0xAA, 0x00, 0x12, 0x80] 0x3C).toArray, by decide⟩) State.reset = some (.bool true) ∧
    answered (.csumOk ⟨(frame [0xAA, 0x00, 0x12, 0x81] 0x3C).toArray, by decide⟩) State.reset = some (.bool false) := by decide
theorem test_hdrDet : answered (.hdrDet ⟨[0xAA, 0x00], by decide⟩) State.reset = some (.bool true) ∧
    answered (.hdrDet ⟨[0x00, 0xAA], by decide⟩) State.reset = some (.bool false) := by decide
theorem test_encInt : ([(.encInt 16909060 .four, .bytes [0x04, 0x03, 0x02, 0x01]), (.encInt 65535 .two, .bytes [0xFF, 0xFF]),
    (.encInt 0 .one, .bytes [0x00]), (.encInt 256 .one, .error .invalidParameter),
    (.encInt 65536 .two, .error .invalidParameter), (.encInt (-1) .four, .error .invalidParameter)] : List (Instr × Ret)).all
      (fun p => decide (answered p.1 State.reset = some p.2)) = true := by decide
theorem test_decInt : ([(.decInt [], .nat 0), (.decInt [0xF4, 0x01], .nat 500),
    (.decInt [0x00, 0x00, 0x00, 0x80], .nat 2147483648)] : List (Instr × Ret)).all
      (fun p => decide (answered p.1 State.reset = some p.2)) = true := by decide
theorem test_encodeFrame :
    answered (.encodeFrame 0x6C 0xFE (List.replicate 22 0xFF)) State.reset =
      some (.bytes ([0xAA, 0xFE, 0x6C] ++ List.replicate 22 0xFF ++ [0xFE])) ∧
    answered (.encodeFrame 0x20 0x00 (List.replicate 23 0)) State.reset = some (.error .invalidPayload) ∧
    refusal (exec (.encodeFrame 0x20 0xFF []) State.reset) = some .encodePrecondition ∧
    refusal (exec (.encodeFrame 0x1F 0x00 []) State.reset) = some .encodePrecondition := by decide
theorem test_decodeFrame : ([
    (.decodeFrame (frame [0xAA, 0x00, 0x2B, 0x50, 0xC3] 0xE8),
      .parsed { echo := 0x2B, status := 0x50, payload := [0x50, 0xC3] ++ List.replicate 20 0 }),
    (.decodeFrame (List.replicate 25 0), .error (.malformedFrame .length)),
    (.decodeFrame (frame [0xAB, 0x00, 0x12, 0x80] 0x3D), .error (.malformedFrame .header)),
    (.decodeFrame (frame [0xAA, 0xFF, 0x12, 0x80] 0x3B), .error (.malformedFrame .address)),
    (.decodeFrame (frame [0xAA, 0x00, 0x6D] 0x17), .error (.malformedFrame .opcode)),
    (.decodeFrame (frame [0xAA, 0x00, 0x12, 0x81] 0x3C), .error (.malformedFrame .checksum)),
    (.decodeFrame (frame [0x00, 0xFF] 0x55), .error (.malformedFrame .header)),
    (.decodeFrame (frame [0xAA, 0xFF] 0x55), .error (.malformedFrame .address)),
    (.decodeFrame (frame [0xAA] 0x55), .error (.malformedFrame .opcode))] : List (Instr × Ret)).all
      (fun p => decide (answered p.1 State.reset = some p.2)) = true := by decide
theorem test_statusMap : ([(0x80, .success), (0x90, .wrongChecksum), (0xA0, .invalidParameterValue),
    (0xB0, .commandNotExecutable), (0xC0, .invalidCommand), (0xFF, .unknownStatus 0xFF), (0x81, .unknownStatus 0x81)] :
      List (Byte × DevOutcome)).all
        (fun p => decide (answered (.statusMap p.1) State.reset = some (.outcome p.2))) = true := by decide
theorem test_lookup :
    answered (.lookup .setLoadOnTimer) State.reset = some (.desc
      { opcode := 0x50, width := 2, scale := 1, dir := .set, kind := .integer, layout := .single }) ∧
    answered (.lookup (.getTransient .cw)) State.reset = some (.desc
      { opcode := 0x37, width := 4, scale := 1000, dir := .query, kind := .composite, layout := .tp }) := by decide
theorem test_scale : ([(.scale (1 / 25) 10 4, .nat 0), (.scale (3 / 50) 10 4, .nat 1),
    (.scale (7716 / 625) 1000 4, .nat 12346), (.scale (858993459 / 2) 10 4, .nat 4294967295),
    (.scale (2147483648 / 5) 10 4, .error .invalidParameter), (.scale (13107 / 200) 1000 2, .nat 65535),
    (.scale (-1 / 100000) 1000 4, .error .invalidParameter), (.scale 0 0 8, .nat 0), (.scale 0 10 3, .nat 0),
    (.scale (-1) 0 0, .error .invalidParameter)] : List (Instr × Ret)).all
      (fun p => decide (answered p.1 State.reset = some p.2)) = true := by decide +kernel
theorem test_scaleLatch : (after (exec (.scale 5000 10 4) State.reset)).map State.opr = some 50000 := by decide +kernel
theorem test_unscale : answered (.unscale 12500 1000) State.reset = some (.rat (25 / 2)) := by decide +kernel
theorem test_build : (after (exec (.build (lookup defaultConfig .getMode) []) ready)).map
    (fun t => (t.txbuf, t.txstream, t.phase)) = some (frame [0xAA, 0x00, 0x29] 0xD3, [], .idle) := by decide
/-- TPDEC of the 13 bytes TPENC gives (95 2.9), of a whole payload (R234), and of 6 bytes, which still give A and its duration. -/
theorem test_tpEncDec :
    (after (exec (.tpDec [0x10, 0x27, 0, 0, 0xF4, 0x01, 0x20, 0x4E, 0, 0, 0xFA, 0, 0x01]) ready)).map
      (fun t => (t.tpA, t.tpTA, t.tpB, t.tpTB, t.tpStyle)) = some (10000, 500, 20000, 250, 1) ∧
    (after (exec (.tpDec ([0x10, 0x27, 0, 0, 0x0A, 0, 0xA0, 0x86, 0x01, 0, 0xFF, 0xFF, 0] ++ List.replicate 9 0)) ready)).map
      (fun t => (t.tpA, t.tpTA, t.tpB, t.tpTB, t.tpStyle)) = some (10000, 10, 100000, 65535, 0) ∧
    (after (exec (.tpDec [0x10, 0x27, 0, 0, 0xF4, 0x01]) ready)).map (fun t => (t.tpA, t.tpTA)) = some (10000, 500) ∧
    answered .tpEnc { ready with tpA := 10000, tpTA := 500, tpB := 20000, tpTB := 250, tpStyle := 1 } =
      some (.bytes [0x10, 0x27, 0, 0, 0xF4, 0x01, 0x20, 0x4E, 0, 0, 0xFA, 0, 0x01]) := by decide +kernel
theorem test_fwText : answered (.fwText 0x01 0x29) State.reset = some (.text "1.29".toList) ∧
    answered (.fwText 0x10 0x0A) State.reset = some (.text "10.a".toList) := by decide +kernel
theorem test_transact : (after (exec (.transact ⟨(frame [0xAA, 0x00, 0x29] 0xD3).toArray, by decide⟩) ready)).map
    (fun t => (t.txstream, t.phase, t.rxcnt)) = some (frame [0xAA, 0x00, 0x29] 0xD3, .rx, 0) := by decide

/-! ### Session and sequencer (95 2.11, 2.12) -/

theorem test_open : (after (exec (.openSession [] 4800 0x05) State.reset)).map (fun t => (t.sess, t.addr, t.res, t.txstream)) =
    some (.opened, 0x05, .done, []) ∧
    (after (exec (.openSession [] 4800) { State.reset with portFree := false })).map (fun t => (t.sess, t.res)) =
      some (.closed, .error .transportOpenError) := by decide
theorem test_openRefused : refusal (exec (.openSession [] 4800 0xFF) State.reset) = some .forbiddenAddress ∧
    refusal (exec (.openSession [] 4800) ready) = some .alreadyOpen := by decide
theorem test_close : (after (exec .closeSession ready)).map (fun t => (t.sess, t.res)) = some (.closed, .done) ∧
    (after (exec .closeSession State.reset)).map (fun t => (t.sess, t.res)) = some (.closed, .done) := by decide
theorem test_gate : refusal (exec (.setLoadState true) State.reset) = some .noSession ∧
    refusal (exec (.setLoadState true) { ready with phase := .rx }) = some .overlap := by decide
/-- The reply's address is not compared with ADDR; a timeout with 25 bytes in and the 26th waiting leaves that byte. -/
theorem test_replyAddress : completes .setCCCurrent (frame [0xAA, 0x05, 0x12, 0x80] 0x41) (.outcome .success) = true := by
  decide +kernel
theorem test_timeoutRace :
    (after (step { ready with phase := .rx, rxcnt := 25, rxstream := [0x3C], turns := [.timeout] })).map
      (fun t => (t.res, t.phase, t.rxstream)) = some (.error .transportTimeout, .idle, [0x3C]) := by decide
/-- 95 2.12: a stale data frame answers a set, a stale status frame answers a get. -/
theorem test_residue :
    completes .setLoadState (frame [0xAA, 0x00, 0x2B, 0x50, 0xC3] 0xE8) (.outcome (.unknownStatus 0x50)) = true ∧
    completes .getMode (frame [0xAA, 0x00, 0x12, 0x80] 0x3C) (.error (.unmappedCode 0x80)) = true ∧
    completes .setLoadState (List.replicate 9 0 ++ [0xE8, 0xAA, 0x00, 0x12, 0x80] ++ List.replicate 12 0)
      (.error (.malformedFrame .header)) = true := by decide +kernel
/-- The device's status frame joins RXSTREAM (entry 11). -/
theorem test_statusFrame : (after (exec (.statusReply 0x05 0x80) ready)).map State.rxstream =
    some (frame [0xAA, 0x05, 0x12, 0x80] 0x41) := by decide
/-- R92: the shutdown convention is load off, local control, close. -/
theorem test_shutdown : shutdownConvention.map (encode defaultConfig 0x00) =
    [some (frame [0xAA, 0x00, 0x21] 0xCB), some (frame [0xAA, 0x00, 0x20] 0xCA), none] := by decide +kernel

/-! ### Witnesses: states and operands that meet the hypotheses of the statements -/

theorem ok_with (o : Overflow) (f : Bool) : Config.Ok { defaultConfig with overflow := o, caseFold := f } :=
  ⟨defaultConfig_ok.opcTotal, defaultConfig_ok.opcKeys, defaultConfig_ok.opcInjective, defaultConfig_ok.opcRange,
    defaultConfig_ok.opcCCCurrent, defaultConfig_ok.recogMark, defaultConfig_ok.recogOpc, defaultConfig_ok.scaleRPos,
    defaultConfig_ok.tpInside, defaultConfig_ok.tpApart, defaultConfig_ok.ivInside, defaultConfig_ok.piInside⟩

theorem ready_sound : ready.Sound := ⟨defaultConfig_ok, by decide⟩
theorem ready_ready : ready.Ready := ⟨rfl, rfl⟩
theorem readyWith_sound (o : Overflow) (f : Bool) : (readyWith o f).Sound := ⟨ok_with o f, ready_sound.2⟩
theorem readyWith_ready (o : Overflow) (f : Bool) : (readyWith o f).Ready := ⟨rfl, rfl⟩

/-- A good status reply and a good data reply. -/
def statusReply26 : List Byte := frame [0xAA, 0x00, 0x12, 0x80] 0x3C
def profileReply26 : List Byte :=
  frame [0xAA, 0x00, 0x33, 0x10, 0x27, 0x00, 0x00, 0xF4, 0x01, 0x20, 0x4E, 0x00, 0x00, 0xFA, 0x00, 0x01] 0x72

/-- The SFC moves next, and the host asks for the mode after that. -/
def thenAsks (s : State) : State := { s with turns := [.sfc, .cmd (.call .getMode)] }
theorem thenAsks_moves (s : State) : (thenAsks s).SfcMoves := .inr ⟨_, rfl⟩

theorem test_witness_DecodeOfEncodeIsTheInstruction : defaultConfig.Ok ∧
    ([.setCCCurrent (858993459 / 2), .setLoadOnTimer 65535, .saveSettings 25, .recallSettings 1, .setMode "cr".toList,
      .setTransientCr "cr".toList 10 (1 / 100) 100 (13107 / 200) "continuous".toList, .getTransientCv "cv".toList,
      .setLoadState false, .getInputValues, .statusReply 0xFF 0xFF] : List Instr).all (Instr.framed defaultConfig) = true :=
  ⟨defaultConfig_ok, by decide +kernel⟩
theorem test_witness_AddressAndChecksumSelectNothing :
    (frame [0xAA, 0x00, 0x29] 0xD3).length = frameLen ∧ (frame [0xAA, 0x00, 0x29] 0xD3).getD 2 0 ≠ statusMark := by decide
theorem test_witness_UnassignedOpcodesAreRejected : ([0x00, 0x11, 0x1F, 0x3A, 0x4D, 0x54, 0x69, 0x6B, 0x6C, 0xFF] : List Byte).all
    (fun b => decide ((frame [0xAA, 0x00, b] 0).length = frameLen ∧ (frame [0xAA, 0x00, b] 0).getD 0 0 = header ∧
      (frame [0xAA, 0x00, b] 0).getD 2 0 ≠ statusMark ∧
      ∀ p ∈ defaultConfig.opc, p.2 ≠ (frame [0xAA, 0x00, b] 0).getD 2 0)) = true := by decide
theorem test_witness_EncodeIsWhatTheOperationSends : ready.Sound ∧ ready.Ready ∧ isRequest .getMode = true ∧
    encode ready.cfg ready.addr .getMode = some (frame [0xAA, 0x00, 0x29] 0xD3) ∧ isRequest (.saveSettings 26) = true ∧
    encode ready.cfg ready.addr (.saveSettings 26) = none := ⟨ready_sound, ready_ready, by decide, by decide, by decide, by decide⟩
theorem test_witness_IntegerCodecRoundTrip : (1 = 1 ∨ 1 = 2 ∨ 1 = 4) ∧ 255 < 256 ^ 1 ∧ 4294967295 < 256 ^ 4 ∧
    ([0xFF, 0xFF, 0xFF, 0xFF] : List Byte).length = 4 := by decide
theorem test_witness_EncIntGivesLittleEndianBytes : 65535 < 256 ^ 2 ∧ (-1 : Int) < 0 ∧ (256 ^ 2 : Nat) ≤ (65536 : Int) := by
  decide
theorem test_witness_ChecksumFindsSingleByteChanges : statusReply26.length = frameLen ∧ csumOk statusReply26 = true ∧
    (0x3D : Byte) ≠ statusReply26.getD 25 0 ∧ (0xAB : Byte) ≠ statusReply26.getD 0 0 ∧
    (statusReply26.take 25).Perm ((frame [0xAA, 0x00, 0x80, 0x12] 0x3C).take 25) ∧
    statusReply26.getD 25 0 = (frame [0xAA, 0x00, 0x80, 0x12] 0x3C).getD 25 0 := by decide
theorem test_witness_EncodeFrameFillsTheFrameMap : (0x6D : Byte) ∉ defaultRecog ∧ (0x6C : Byte) ∈ defaultRecog ∧
    (0xFE : Byte) ≠ 0xFF ∧ 22 < (List.replicate 23 (0 : Byte)).length ∧ (List.replicate 22 (0 : Byte)).length ≤ 22 := by decide
theorem test_witness_FrameCodecRoundTrip : (0x12 : Byte) ∈ defaultRecog ∧ (0xFE : Byte) ≠ 0xFF ∧
    ([0x80] : List Byte).length ≤ 22 ∧ decodeFrame defaultRecog statusReply26 =
      .ok { echo := 0x12, status := 0x80, payload := 0x80 :: List.replicate 21 0 } := by decide
theorem test_witness_StatusMapNamesFiveBytes : (0x81 : Byte) ∉ ([0x80, 0x90, 0xA0, 0xB0, 0xC0] : List Byte) := by decide
theorem test_witness_UnscaleUndoesScale : 0 < 1000 ∧ ((25 / 2 : Rat) * (1000 : Nat) = (12500 : Int)) ∧
    scaleValue .fault (25 / 2) 1000 4 = .ok 12500 := by decide +kernel
theorem test_witness_OpcodesAreDistinctAndRecognised : defaultConfig.Ok := defaultConfig_ok
theorem test_witness_ProfileEncodesToThirteenBytes : ready.cfg.tp = defaultTP := rfl
theorem test_witness_ProfileCodecRoundTrip : ready.cfg.Ok ∧ State.reset.cfg = ready.cfg ∧ ready.cfg.tp = defaultTP ∧
    13 ≤ (List.replicate 13 (0xFF : Byte)).length := ⟨defaultConfig_ok, rfl, rfl, by decide⟩
/-- FlagSettersIssueOneByte, EmptyRequestsIssue, EnumSettersIssueTheCode, GetTransientIssuesTheQuery: an open and idle session. -/
theorem test_witness_readySession : ready.Sound ∧ ready.Ready ∧ (Instr.getMode, OpName.getMode) ∈ emptyRequests :=
  ⟨ready_sound, ready_ready, by decide⟩
theorem test_witness_QuantitySettersIssueTheScaledInteger : ready.Sound ∧ ready.Ready ∧ (0 : Rat) ≤ 65535 ∧
    ∀ p ∈ quantitySetters ready.cfg 65535, roundRat ((65535 : Rat) * (p.2.2.1 : Rat)) < (256 ^ p.2.2.2 : Nat) :=
  ⟨ready_sound, ready_ready, by decide, by decide +kernel⟩
theorem test_witness_QuantitySettersRejectBadOperands : ready.Ready ∧ (-1 / 1000 : Rat) < 0 ∧ ready.cfg.overflow = .fault ∧
    ∀ p ∈ quantitySetters ready.cfg 4294967296, (256 ^ p.2.2.2 : Nat) ≤ roundRat ((4294967296 : Rat) * (p.2.2.1 : Rat)) :=
  ⟨ready_ready, by decide +kernel, rfl, by decide +kernel⟩
theorem test_witness_TruncatingSettersSendTheLowBytes : (readyWith .truncate false).Sound ∧ (readyWith .truncate false).Ready ∧
    (0 : Rat) ≤ 4294967296 ∧ (readyWith .truncate false).cfg.overflow = .truncate ∧
    ∀ p ∈ quantitySetters (readyWith .truncate false).cfg 4294967296,
      (256 ^ p.2.2.2 : Nat) ≤ roundRat ((4294967296 : Rat) * (p.2.2.1 : Rat)) :=
  ⟨readyWith_sound _ _, readyWith_ready _ _, by decide, rfl, by decide +kernel⟩
theorem test_witness_CaseVariantsGoByCaseFold : (readyWith .fault true).Sound ∧ (readyWith .fault false).Sound ∧
    (readyWith .fault true).Ready ∧ caseVariant modeText .cv ['C', 'v'] ∧ caseVariant triggerText .bus ['B', 'U', 'S'] ∧
    caseVariant functionText .short ['S', 'h', 'o', 'r', 't'] ∧ caseVariant styleText .pulse ['P', 'u', 'l', 's', 'e'] ∧
    unrecognised styleText ['b', 'u', 'r', 's', 't'] :=
  ⟨readyWith_sound _ _, readyWith_sound _ _, readyWith_ready _ _, ⟨by decide, by decide⟩, ⟨by decide, by decide⟩,
    ⟨by decide, by decide⟩, ⟨by decide, by decide⟩, fun m => by cases m <;> decide⟩
theorem test_witness_UnrecognisedStringsSendNothing : ready.Ready ∧ unrecognised modeText ['b', 'o', 'g', 'u', 's'] ∧
    unrecognised functionText ['l', 'i', 's', 't'] ∧ unrecognised triggerText ['m', 'a', 'n', 'u', 'a', 'l'] :=
  ⟨ready_ready, fun m => by cases m <;> decide, fun m => by cases m <;> decide, fun m => by cases m <;> decide⟩
theorem test_witness_RegisterIndexIsChecked : ready.Sound ∧ ready.Ready ∧ (1 ≤ (25 : Int) ∧ (25 : Int) ≤ 25) ∧
    ¬(1 ≤ (26 : Int) ∧ (26 : Int) ≤ 25) ∧ ¬(1 ≤ (0 : Int) ∧ (0 : Int) ≤ 25) := ⟨ready_sound, ready_ready, by decide, by decide, by decide⟩
theorem test_witness_SetTransientIssuesTheProfile : ready.Sound ∧ ready.Ready ∧
    (readyWith .truncate true).cfg.overflow = .truncate ∧ (0 : Rat) ≤ 13107 / 200 ∧
    roundRat ((858993459 / 2 : Rat) * ((lookup ready.cfg (.setTransient .cc)).scale : Rat)) < 2 ^ 32 ∧
    roundRat ((13107 / 200 : Rat) * 1000) < 2 ^ 16 := ⟨ready_sound, ready_ready, rfl, by decide +kernel, by decide +kernel, by decide +kernel⟩
theorem test_witness_SetTransientRejectsBadArguments : ready.Ready ∧
    badQuantity ready.cfg.overflow (-1) (lookup ready.cfg (.setTransient .cc)).scale 4 = true ∧
    badQuantity ready.cfg.overflow (2147483648 / 5) (lookup ready.cfg (.setTransient .cc)).scale 4 = true ∧
    badQuantity ready.cfg.overflow (858993459 / 2) (lookup ready.cfg (.setTransient .cc)).scale 4 = false ∧
    badQuantity ready.cfg.overflow (8192 / 125) 1000 2 = true ∧ badQuantity ready.cfg.overflow (13107 / 200) 1000 2 = false ∧
    unrecognised styleText ['b', 'u', 'r', 's', 't'] :=
  ⟨ready_ready, by decide +kernel, by decide +kernel, by decide +kernel, by decide +kernel, by decide +kernel,
    fun m => by cases m <;> decide⟩
theorem test_witness_OpenClaimsThePort : State.reset.phase = .idle ∧ ready.phase = .idle ∧ ready.sess = .opened ∧
    State.reset.sess = .closed ∧ (0xFE : Byte) ≠ 0xFF ∧ State.reset.portFree = true ∧
    ({ State.reset with portFree := false } : State).portFree = false := by decide
theorem test_witness_CloseIsIdempotent : ready.phase = .idle := rfl
theorem test_witness_NoSessionNoOperation : State.reset.sess = .closed ∧ isRequest .getMode = true := by decide
theorem test_witness_OverlapIsRefused : (replied .getMode []).sess = .opened ∧ (replied .getMode []).phase = .rx ∧
    isRequest (.setLoadState true) = true := by decide
theorem test_witness_RequestsSendOneValidFrameOrNothing : isRequest (.saveSettings 0) = true ∧ ready.Sound ∧
    (∃ t, exec (.saveSettings 0) ready = .next t ∧ t.phase = .idle) ∧ isRequest .getMode = true ∧
    ∃ t, exec .getMode ready = .next t ∧ t.phase = .rx := ⟨rfl, ready_sound, ⟨_, rfl, rfl⟩, rfl, ⟨_, rfl, rfl⟩⟩
theorem test_witness_CodecPrimitivesAnswer : 255 < 256 ^ 1 ∧ (-1 : Int) < 0 ∧ 256 ^ 2 ≤ 65536 ∧ (0x6C : Byte) ∈ State.reset.cfg.recog ∧ (0xFE : Byte) ≠ 0xFF ∧
    22 < (List.replicate 23 (0 : Byte)).length ∧ (∃ p, decodeFrame State.reset.cfg.recog statusReply26 = .ok p) ∧
    ∃ e, decodeFrame State.reset.cfg.recog [] = .error e :=
  ⟨by decide, by decide, by decide, by decide, by decide, by decide, ⟨_, rfl⟩, ⟨_, rfl⟩⟩
theorem test_witness_OperandPrimitivesAnswer : (0 : Rat) ≤ 65535 ∧
    (roundRat ((65535 : Rat) * ((1 : Nat) : Rat))).toNat < 256 ^ 2 ∧
    256 ^ 2 ≤ (roundRat ((65536 : Rat) * ((1 : Nat) : Rat))).toNat ∧ State.reset.cfg.overflow = .fault ∧
    (readyWith .truncate true).cfg.overflow = .truncate ∧ (-1 : Rat) < 0 ∧
    defaultTP.style + 1 ≤ (List.replicate 13 (0 : Byte)).length ∧ defaultTP.a + 4 ≤ (List.replicate 4 (0 : Byte)).length := by
  decide +kernel
theorem test_witness_OperandsOutsideTheRulesAreRefused : (0x6D : Byte) ∉ State.reset.cfg.recog ∧ State.reset.addr ≠ 0xFF ∧
    (lookup defaultConfig .getMode).opcode ∈ State.reset.cfg.recog ∧ 22 < (List.replicate 23 (0 : Byte)).length := by decide
theorem test_witness_BuildTransactAndStatusFrame : (lookup defaultConfig .getMode).opcode ∈ ready.cfg.recog ∧
    ready.addr ≠ 0xFF ∧ (List.replicate 22 (0 : Byte)).length ≤ 22 ∧ ready.Ready :=
  ⟨by decide, by decide, by decide, ready_ready⟩
theorem test_witness_StepRunsTheDecodedInstruction :
    decode ready.cfg (frame [0xAA, 0x00, 0x29] 0xD3) = .ok .getMode ∧ decode ready.cfg [] = .error .length ∧
    ({ ready with turns := [.cmd (.frame (frame [0xAA, 0x00, 0x29] 0xD3))] } : State).turns =
      .cmd (.frame (frame [0xAA, 0x00, 0x29] 0xD3)) :: [] ∧ ready.phase = .idle ∧
    (let s : State := { ready with phase := .rx, turns := [.sfc] }
     s.turns = .sfc :: [] ∧ s.rxcnt < 26 ∧ s.rxstream = []) := by decide
theorem test_witness_ReceiveTakesTheOldestByte :
    let s : State := { thenAsks ready with phase := .rx, rxcnt := 25, rxstream := [0x3C] }
    s.SfcMoves ∧ s.phase = .rx ∧ s.rxcnt < 26 ∧ s.rxbuf.length = 26 ∧ s.rxstream = 0x3C :: [] :=
  ⟨.inr ⟨_, rfl⟩, rfl, by decide, by decide, rfl⟩
theorem test_witness_TimeoutEndsTheOperation :
    let s : State := { ready with phase := .rx, rxcnt := 25, turns := [.timeout] }
    s.turns = .timeout :: [] ∧ s.phase = .rx ∧ s.rxcnt < 26 ∧ s.rawTxn = false ∧
      ({ s with rawTxn := true } : State).rawTxn = true ∧ ({ s with rxcnt := 26 } : State).rxcnt = 26 := by decide
theorem test_witness_PeerBytesWaitInOrder : ({ ready with turns := [.peer 0xAA] } : State).turns = .peer 0xAA :: [] := rfl
theorem test_witness_SetCompletionMapsTheStatus :
    let s := thenAsks (replied .setMode statusReply26)
    s.SfcMoves ∧ s.phase = .rx ∧ s.rxcnt = 26 ∧ s.rawTxn = false ∧ s.cur.desc.dir = .set ∧
      (∃ p, decodeFrame s.cfg.recog s.rxbuf = .ok p) ∧ ∃ e, decodeFrame s.cfg.recog [] = .error e :=
  ⟨thenAsks_moves _, rfl, rfl, rfl, rfl, ⟨_, rfl⟩, ⟨_, rfl⟩⟩
theorem test_witness_GetCompletionDecodesTheField :
    let s := thenAsks (replied .getFunction (frame [0xAA, 0x00, 0x5E, 0x04] 0x0C))
    s.SfcMoves ∧ s.phase = .rx ∧ s.rxcnt = 26 ∧ s.rawTxn = false ∧ s.cur.desc.dir = .query ∧
      s.cur.desc.layout = .single ∧ s.cur.desc.kind = .enum .function ∧
      (∃ p, decodeFrame s.cfg.recog s.rxbuf = .ok p ∧ decInt (p.payload.take s.cur.desc.width) = (functionCode .battery).toNat) ∧
      (lookup defaultConfig .getMaxPower).kind = .quantity ∧ (lookup defaultConfig .getLoadOnTimer).kind = .integer ∧
      (lookup defaultConfig .getLoadOnTimerState).kind = .flag ∧ (lookup defaultConfig .getMode).kind = .enum .mode ∧
      (lookup defaultConfig .getTriggerSource).kind = .enum .trigger :=
  ⟨thenAsks_moves _, rfl, rfl, rfl, rfl, rfl, rfl, ⟨_, rfl, rfl⟩, rfl, rfl, rfl, rfl, rfl⟩
theorem test_witness_CompositeCompletionsReadTheirFields :
    let s := thenAsks (replied (.getTransient .cc) profileReply26)
    s.SfcMoves ∧ s.phase = .rx ∧ s.rxcnt = 26 ∧ s.rawTxn = false ∧ s.cur.desc.dir = .query ∧ s.cur.desc.layout = .tp ∧
      (∃ e, decodeFrame s.cfg.recog (frame [0xAA, 0x00, 0x33] 0) = .error e) ∧
      (∃ p, decodeFrame s.cfg.recog s.rxbuf = .ok p ∧ p.payload.getD s.cfg.tp.style 0 = styleCode .pulse) ∧
      (lookup defaultConfig .getInputValues).layout = .iv ∧ (lookup defaultConfig .getProductInformation).layout = .pi :=
  ⟨thenAsks_moves _, rfl, rfl, rfl, rfl, rfl, ⟨_, rfl⟩, ⟨_, rfl, rfl⟩, rfl, rfl⟩
theorem test_witness_TwentySixStepsReadTheReply :
    let s : State := { ready with
      phase := .rx, rxstream := statusReply26 ++ [0xAA], turns := List.replicate 26 .sfc ++ [.cmd (.call .getMode)] }
    s.SfcMovesFor 26 ∧ s.phase = .rx ∧ s.rxcnt = 0 ∧ s.rxbuf.length = 26 ∧ statusReply26.length = 26 ∧
      s.rxstream = statusReply26 ++ [0xAA] :=
  ⟨fun _ h => List.eq_of_mem_replicate (n := 26) h, rfl, rfl, by decide, by decide, rfl⟩
theorem test_witness_BareTransactReturnsTheRawBytes :
    let s : State := { thenAsks (replied .getMode statusReply26) with rawTxn := true }
    s.SfcMoves ∧ s.phase = .rx ∧ s.rxcnt = 26 ∧ s.rawTxn = true := ⟨.inr ⟨_, rfl⟩, rfl, rfl, rfl⟩
theorem test_witness_TransientReadsBackWhatWasSet :
    let u := thenAsks (replied (.getTransient .cc) profileReply26)
    ready.Sound ∧ ready.Ready ∧ roundRat ((1000 : Rat) * ((lookup ready.cfg (.setTransient .cc)).scale : Rat)) < 2 ^ 32 ∧
      roundRat ((1 / 2 : Rat) * 1000) < 2 ^ 16 ∧ ((1 / 2 : Rat) * 1000 = (500 : Int)) ∧ ((1 / 4 : Rat) * 1000 = (250 : Int)) ∧
      u.SfcMoves ∧ u.phase = .rx ∧ u.rxcnt = 26 ∧ u.rawTxn = false ∧ u.cfg = ready.cfg ∧
      u.cur.desc = lookup ready.cfg (.getTransient .cc) ∧
      (∃ p, decodeFrame u.cfg.recog u.rxbuf = .ok p ∧
        (after (exec (.setTransientCc "cc".toList 1000 (1 / 2) 2000 (1 / 4) "pulse".toList) ready)).map
          (fun t => (t.txbuf.drop 3).take 13) = some (p.payload.take 13)) :=
  ⟨ready_sound, ready_ready, by decide +kernel, by decide +kernel, by decide +kernel, by decide +kernel, thenAsks_moves _, rfl, rfl, rfl, rfl,
    rfl, ⟨_, rfl, by decide +kernel⟩⟩
/-- StepKeepsTheInvariant and the statements over every step: an open session about to issue a query. -/
def aboutToAsk : State := { ready with turns := [.cmd (.frame (frame [0xAA, 0x00, 0x29] 0xD3))] }
theorem test_witness_StepKeepsTheInvariant : aboutToAsk.Inv ∧ ∃ t, step aboutToAsk = .next t ∧ t.phase = .rx :=
  ⟨⟨defaultConfig_ok, by decide, by decide, by decide, by decide, by decide, by decide, rfl⟩, ⟨_, rfl, rfl⟩⟩
theorem test_witness_StreamsAreNeverRewrittenOrFlushed : ∃ t, step aboutToAsk = .next t ∧ t.txstream.length = 26 :=
  ⟨_, rfl, by decide⟩
theorem test_witness_OnlyOpenAndCloseMoveTheSession :
    let s : State := { State.reset with turns := [.cmd (.call (.openSession [] 9600 0x05))] }
    ∃ t, step s = .next t ∧ t.addr ≠ s.addr ∧ t.sess ≠ s.sess := ⟨_, rfl, by decide, by decide⟩
theorem test_witness_ErrorsKeepTheSession :
    let s : State := { ready with turns := [.cmd (.call (.saveSettings 26))] }
    ∃ t, step s = .next t ∧ t.res = .error .outOfRange ∧ s.res ≠ .error .outOfRange := ⟨_, rfl, rfl, by decide⟩
theorem test_witness_StuckExactlyWhenNothingCanMove : ready.turns = [] ∧ ready.phase = .idle ∧
    ({ ready with phase := .rx } : State).rxcnt < 26 ∧ ready.rxstream = [] := by decide
theorem test_witness_CompletionsAlwaysDeliver :
    let s := thenAsks (replied .getMode statusReply26)
    s.Inv ∧ s.SfcMoves ∧ s.phase = .rx ∧ s.rxcnt = 26 :=
  ⟨⟨defaultConfig_ok, by decide, by decide, by decide, by decide, by decide, by decide, rfl⟩, thenAsks_moves _, rfl, rfl⟩

end Sys2Proof.Tests
end

section
/-! PROOFS of the statements on the step (00_scope.md). First one equation for each kind of turn; then that no
instruction faults, from which the faults of a step are read off; then O42 and O59. -/

namespace Sys2Proof.Machine

/-- Where the SFC has no step of its own: in IDLE, and in RX with bytes missing and none waiting (R274). -/
theorem sfcStep_blocked {s : State} (h : s.phase = .idle ∨ s.rxcnt < frameLen ∧ s.rxstream = []) (blocked : Out) :
    sfcStep s blocked = blocked := by
  obtain ⟨_, h1⟩ | ⟨_, _, _, h1⟩ | ⟨b, rest, hp, _, hq, _⟩ | ⟨hp, hc, _⟩ := sfcStep_cases s blocked
  · exact h1
  · exact h1
  · simp [hp, hq] at h
  · simp [hp, Nat.not_lt.mpr hc] at h

/-! ### The step, by the turn at the head of the list -/

theorem step_nil {s : State} (h : s.turns = []) : step s = sfcStep s (.fault (stuckReason s)) := by
  simp [step, h]

/-- A command is fetched under the parameters and executed on the state without its turn (R151, entry 12). -/
theorem step_cmd {s : State} {c : Command} {rest : List Turn} {i : Instr} (h : s.turns = .cmd c :: rest)
    (hf : fetch s.cfg c = .ok i) : step s = exec i { s with turns := rest } := by
  simp [step, h, hf]

theorem step_cmd_undecodable {s : State} {c : Command} {rest : List Turn} {e : DecodeError}
    (h : s.turns = .cmd c :: rest) (hf : fetch s.cfg c = .error e) : step s = .refused (.undecodable e) := by
  simp [step, h, hf]

theorem step_peer {s : State} {b : Byte} {rest : List Turn} (h : s.turns = .peer b :: rest) :
    step s = .next (supply [b] { s with turns := rest }) := by
  simp [step, h]

theorem step_timeout {s : State} {rest : List Turn} (h : s.turns = .timeout :: rest) :
    step s = .next (timeoutEvent { s with turns := rest }) := by
  simp [step, h]

theorem step_sfc {s : State} {rest : List Turn} (h : s.turns = .sfc :: rest) :
    step s = sfcStep { s with turns := rest } (.next { s with turns := rest }) := by
  simp [step, h]

/-- A turn of the SFC passes where the SFC has no step of its own. -/
theorem step_sfc_blocked {s : State} {rest : List Turn} (h : s.turns = .sfc :: rest)
    (hb : s.phase = .idle ∨ s.rxcnt < frameLen ∧ s.rxstream = []) : step s = .next { s with turns := rest } :=
  (step_sfc h).trans (sfcStep_blocked (s := { s with turns := rest }) hb _)

theorem step_port {s : State} {isFree : Bool} {rest : List Turn} (h : s.turns = .port isFree :: rest) :
    step s = .next { s with turns := rest, portFree := isFree } := by
  simp [step, h]

/-! ### No instruction faults -/

/-- The outcome is no fault: a next state or a refusal. -/
def CannotFault (o : Out) : Prop := ∀ f, o ≠ .fault f

theorem cannotFault_next (s : State) : CannotFault (.next s) := fun _ => nofun

theorem cannotFault_refused (r : Refusal) : CannotFault (.refused r) := fun _ => nofun

theorem gate_cannotFault {s : State} {k : State → Out} (hk : ∀ s, CannotFault (k s)) : CannotFault (gate s k) := by
  obtain ⟨_, h⟩ | ⟨_, _, h⟩ | ⟨_, h⟩ := gate_cases s k <;> rw [h]
  · exact cannotFault_refused _
  · exact cannotFault_refused _
  · exact hk s

theorem withScale_cannotFault {x : Rat} {sc n : Nat} {s : State} {k : Nat → State → Out}
    (hk : ∀ w s, CannotFault (k w s)) : CannotFault (withScale x sc n s k) := by
  obtain ⟨w, _, _, h⟩ | ⟨_, h⟩ := withScale_cases x sc n s k <;> rw [h]
  · exact hk w _
  · exact cannotFault_next _

theorem build_cannotFault {d : Desc} {data : List Byte} {s : State} {onFrame : State → Out} {onError : Err → Out}
    (hf : ∀ s, CannotFault (onFrame s)) (he : ∀ e, CannotFault (onError e)) :
    CannotFault (build d data s onFrame onError) := by
  obtain ⟨_, h⟩ | ⟨_, h⟩ | ⟨_, _, _, h⟩ := build_cases d data s onFrame onError <;> rw [h]
  · exact cannotFault_refused _
  · exact he _
  · exact hf _

theorem issue_cannotFault (op : OpName) (data : List Byte) (s : State) : CannotFault (issue op data s) :=
  build_cannotFault (fun _ => cannotFault_next _) (fun _ => cannotFault_next _)

theorem setQuantity_cannotFault (op : OpName) (x : Rat) (sc n : Nat) (s : State) :
    CannotFault (setQuantity op x sc n s) :=
  gate_cannotFault fun _ => withScale_cannotFault fun _ _ => issue_cannotFault _ _ _

theorem setFlag_cannotFault (op : OpName) (b : Bool) (s : State) : CannotFault (setFlag op b s) :=
  gate_cannotFault fun _ => issue_cannotFault _ _ _

theorem setEnum_cannotFault (op : OpName) (code : Option Byte) (e : Err) (s : State) :
    CannotFault (setEnum op code e s) :=
  gate_cannotFault fun _ =>
    match code with
    | some _ => issue_cannotFault _ _ _
    | none => cannotFault_next _

theorem setIndex_cannotFault (op : OpName) (r : Int) (s : State) : CannotFault (setIndex op r s) := by
  refine gate_cannotFault fun s => ?_
  split_ifs
  · exact cannotFault_next _
  · exact issue_cannotFault _ _ _

theorem issueEmpty_cannotFault (op : OpName) (s : State) : CannotFault (issueEmpty op s) :=
  gate_cannotFault fun _ => issue_cannotFault _ _ _

theorem setTransient_cannotFault (t : Text) (a ta b tb : Rat) (style : Text) (s : State) :
    CannotFault (setTransient t a ta b tb style s) := by
  refine gate_cannotFault fun s => ?_
  split
  · exact cannotFault_next _
  · refine withScale_cannotFault fun _ _ => withScale_cannotFault fun _ _ => withScale_cannotFault fun _ _ =>
      withScale_cannotFault fun _ _ => ?_
    split
    · exact cannotFault_next _
    · exact issue_cannotFault _ _ _

theorem getTransient_cannotFault (t : Text) (s : State) : CannotFault (getTransient t s) := by
  refine gate_cannotFault fun s => ?_
  split
  · exact cannotFault_next _
  · exact issue_cannotFault _ _ _

theorem execOpenSession_cannotFault (port : Text) (baudRate : Nat) (addressByte : Byte) (s : State) :
    CannotFault (execOpenSession port baudRate addressByte s) := by
  unfold execOpenSession
  split_ifs
  · exact cannotFault_refused _
  · exact cannotFault_refused _
  · exact cannotFault_refused _
  · exact cannotFault_next _
  · exact cannotFault_next _

theorem execCloseSession_cannotFault (s : State) : CannotFault (execCloseSession s) := by
  unfold execCloseSession
  split_ifs
  · exact cannotFault_refused _
  · exact cannotFault_next _

theorem execEncInt_cannotFault (v : Int) (n : IntWidth) (s : State) : CannotFault (execEncInt v n s) := by
  unfold execEncInt
  split
  · exact cannotFault_next _
  · exact cannotFault_next _

theorem execEncodeFrame_cannotFault (opc addr : Byte) (p : List Byte) (s : State) :
    CannotFault (execEncodeFrame opc addr p s) := by
  unfold execEncodeFrame
  split
  · exact cannotFault_next _
  · exact cannotFault_next _
  · exact cannotFault_refused _

theorem execDecodeFrame_cannotFault (raw : List Byte) (s : State) : CannotFault (execDecodeFrame raw s) := by
  unfold execDecodeFrame
  split
  · exact cannotFault_next _
  · exact cannotFault_next _

theorem execScale_cannotFault (x : Rat) (sc n : Nat) (s : State) : CannotFault (execScale x sc n s) := by
  unfold execScale
  split
  · exact cannotFault_next _
  · exact cannotFault_next _

/-- The faults of the machine belong to the waiting step and the completion, to no instruction. -/
theorem exec_cannotFault (i : Instr) (s : State) : CannotFault (exec i s) :=
  match i with
  | .setRemoteControl _ | .setLoadState _ | .setLoadOnTimerState _ => setFlag_cannotFault _ _ _
  | .setMaxVoltage _ | .setMaxCurrent _ | .setMaxPower _ | .setCCCurrent _ | .setCVVoltage _ | .setCWPower _
  | .setCRResistance _ | .setBatteryTestVoltage _ | .setLoadOnTimer _ => setQuantity_cannotFault _ _ _ _ _
  | .setMode _ | .setTriggerSource _ | .setFunction _ => setEnum_cannotFault _ _ _ _
  | .saveSettings _ | .recallSettings _ => setIndex_cannotFault _ _ _
  | .getMaxVoltage | .getMaxCurrent | .getMaxPower | .getMode | .getCCCurrent | .getCVVoltage | .getCWPower
  | .getCRResistance | .getBatteryTestVoltage | .getLoadOnTimer | .getLoadOnTimerState | .getTriggerSource
  | .triggerLoad | .getFunction | .getInputValues | .getProductInformation => issueEmpty_cannotFault _ _
  | .setTransientCc _ _ _ _ _ _ | .setTransientCv _ _ _ _ _ _ | .setTransientCw _ _ _ _ _ _
  | .setTransientCr _ _ _ _ _ _ => setTransient_cannotFault _ _ _ _ _ _ _
  | .getTransientCc _ | .getTransientCv _ | .getTransientCw _ | .getTransientCr _ => getTransient_cannotFault _ _
  | .openSession port baudRate addressByte => execOpenSession_cannotFault port baudRate addressByte _
  | .closeSession => execCloseSession_cannotFault _
  | .transact _ => gate_cannotFault fun _ => cannotFault_next _
  | .build _ _ => build_cannotFault (fun _ => cannotFault_next _) (fun _ => cannotFault_next _)
  | .encInt _ _ => execEncInt_cannotFault _ _ _
  | .encodeFrame _ _ _ => execEncodeFrame_cannotFault _ _ _ _
  | .decodeFrame _ => execDecodeFrame_cannotFault _ _
  | .scale _ _ _ => execScale_cannotFault _ _ _ _
  | .statusReply _ _ | .csum8 _ | .csumOk _ | .hdrDet _ | .decInt _ | .statusMap _ | .lookup _ | .unscale _ _ | .tpEnc
  | .tpDec _ | .fwText _ _ => cannotFault_next _

/-! ### The faults of a step -/

theorem complete_fault {s : State} {f : Fault} (h : complete s = .fault f) : f = .noCompletion := by
  obtain ⟨_, h1⟩ | ⟨_, _, _, h1⟩ | ⟨_, _, _, _, h1⟩ | ⟨_, _, _, _, _, h1⟩ | ⟨_, _, _, _, h1⟩ := complete_cases s <;>
    rw [h1] at h <;> cases h
  rfl

/-- The SFC's own step faults as the completion does, or as `blocked` does where the SFC has no step. -/
theorem sfcStep_fault {s : State} {blocked : Out} {f : Fault} (h : sfcStep s blocked = .fault f) :
    f = .noCompletion ∨
      blocked = .fault f ∧ (s.phase = .idle ∨ s.phase = .rx ∧ s.rxcnt < frameLen ∧ s.rxstream = []) := by
  obtain ⟨hp, h1⟩ | ⟨hp, hc, hq, h1⟩ | ⟨_, _, _, _, _, h1⟩ | ⟨_, _, h1⟩ := sfcStep_cases s blocked <;> rw [h1] at h
  · exact .inr ⟨h, .inl hp⟩
  · exact .inr ⟨h, .inr ⟨hp, hc, hq⟩⟩
  · cases h
  · exact .inl (complete_fault h)

/-- A turn of any agent rules both stuck faults out: only a completion can fault on it (R11). -/
theorem step_turn_fault {s : State} {t : Turn} {rest : List Turn} {f : Fault} (ht : s.turns = t :: rest)
    (h : step s = .fault f) : f = .noCompletion := by
  cases t with
  | cmd c =>
    cases hf : fetch s.cfg c with
    | ok i => exact absurd (step_cmd ht hf ▸ h) (exec_cannotFault i _ f)
    | error e => cases (step_cmd_undecodable ht hf).symm.trans h
  | peer b => cases (step_peer ht).symm.trans h
  | timeout => cases (step_timeout ht).symm.trans h
  | port isFree => cases (step_port ht).symm.trans h
  | sfc =>
    obtain hn | ⟨hb, _⟩ := sfcStep_fault ((step_sfc ht).symm.trans h)
    · exact hn
    · cases hb

/-- Every fault of a step: a completion without a result, or no turn left where the SFC has no step of its own. -/
theorem step_fault {s : State} {f : Fault} (h : step s = .fault f) :
    f = .noCompletion ∨ (f = .stuckIdle ∧ s.turns = [] ∧ s.phase = .idle) ∨
      (f = .stuckReceiving ∧ s.turns = [] ∧ s.phase = .rx ∧ s.rxcnt < frameLen ∧ s.rxstream = []) := by
  cases ht : s.turns with
  | cons t rest => exact .inl (step_turn_fault ht h)
  | nil =>
    obtain hn | ⟨hb, hp | ⟨hp, hc, hq⟩⟩ := sfcStep_fault ((step_nil ht).symm.trans h)
    · exact .inl hn
    · simp only [stuckReason, hp, Host.Outcome.fault.injEq] at hb
      exact .inr (.inl ⟨hb.symm, rfl, hp⟩)
    · simp only [stuckReason, hp, Host.Outcome.fault.injEq] at hb
      exact .inr (.inr ⟨hb.symm, rfl, hp, hc, hq⟩)

/-- With no turn left and no step of its own the SFC is stuck (R11, R279). -/
theorem step_stuck {s : State} (ht : s.turns = []) (h : s.phase = .idle ∨ s.rxcnt < frameLen ∧ s.rxstream = []) :
    step s = .fault (stuckReason s) :=
  (step_nil ht).trans (sfcStep_blocked h _)

/-! ### The statements -/

/-- Settles O42: the step's equation for each kind of turn. -/
theorem stepRunsTheDecodedInstruction : Obligations.StepRunsTheDecodedInstruction := fun _ _ =>
  ⟨fun _ _ ht hd => step_cmd ht hd, fun _ _ ht hd => step_cmd_undecodable ht hd, fun _ ht => step_cmd ht rfl,
    fun _ ht => step_port ht, fun ht hb => step_sfc_blocked ht hb⟩

/-- Settles O59: the faults of a step are those of `step_fault`, and `step_stuck` says that both stuck faults arise. -/
theorem stuckExactlyWhenNothingCanMove : Obligations.StuckExactlyWhenNothingCanMove := by
  refine fun s => ⟨⟨fun h => ?_, fun ⟨ht, hp, hc, hq⟩ => ?_⟩, fun h => ?_, fun ⟨ht, hp⟩ => ?_⟩
  · obtain h | ⟨h, _⟩ | ⟨_, hstuck⟩ := step_fault h
    · cases h
    · cases h
    · exact hstuck
  · rw [step_stuck ht (.inr ⟨hc, hq⟩), stuckReason, hp]
  · obtain h | ⟨_, hstuck⟩ | ⟨h, _⟩ := step_fault h
    · cases h
    · exact hstuck
    · cases h
  · rw [step_stuck ht (.inl hp), stuckReason, hp]

end Sys2Proof.Machine
end

section
/-! PROOFS of the statements on the state (10_state.md). First what an operation can do to the session, the link and the
buffers: either one of four effects that leave SESS and ADDR alone, or the write of `open` or of `close`. Read off that:
the invariant, the streams and the session of every step (O52, O55, O56). Then the gate in front of the host operations
(O35, O36), and the operations' full next states. -/

namespace Sys2Proof.Machine

/-! ### What a step does to the session and the link -/

/-- `t` is `s` but for the registers that neither the session nor the link rests on: OPR, the TP registers and the model's
own `ret`, `rawTxn`, `portFree` and `turns`. -/
structure SameLink (s t : State) : Prop where
  sess : t.sess = s.sess
  addr : t.addr = s.addr
  phase : t.phase = s.phase
  txbuf : t.txbuf = s.txbuf
  rxbuf : t.rxbuf = s.rxbuf
  rxcnt : t.rxcnt = s.rxcnt
  cur : t.cur = s.cur
  res : t.res = s.res
  txstream : t.txstream = s.txstream
  rxstream : t.rxstream = s.rxstream
  cfg : t.cfg = s.cfg

/-- Nothing is sent and nothing received: PHASE and RES stay or the operation is over (R23), TXBUF stays or is a whole frame
(R24), CUR stays or is latched from the table (R27). -/
structure StaysLocal (s t : State) : Prop where
  sess : t.sess = s.sess
  addr : t.addr = s.addr
  ending : t.phase = s.phase ∧ t.res = s.res ∨ t.phase = .idle
  txbuf : t.txbuf = s.txbuf ∨ t.txbuf.length = frameLen
  rxbuf : t.rxbuf = s.rxbuf
  rxcnt : t.rxcnt = s.rxcnt
  latch : t.cur = s.cur ∨ t.cur.desc = lookup s.cfg t.cur.op
  txstream : t.txstream = s.txstream
  rxstream : t.rxstream = s.rxstream
  cfg : t.cfg = s.cfg

/-- The write step of an open session (R273): the whole frame in TXBUF joins TXSTREAM, and the wait for the reply begins. -/
structure SendsFrame (s t : State) : Prop where
  opened : s.sess = .opened
  sess : t.sess = s.sess
  addr : t.addr = s.addr
  phase : t.phase = .rx
  txbuf : t.txbuf.length = frameLen
  rxbuf : t.rxbuf = s.rxbuf
  rxcnt : t.rxcnt = 0
  latch : t.cur = s.cur ∨ t.cur.desc = lookup s.cfg t.cur.op
  res : t.res = s.res
  txstream : t.txstream = s.txstream ++ t.txbuf
  rxstream : t.rxstream = s.rxstream
  cfg : t.cfg = s.cfg

/-- The effects that leave the session alone. -/
inductive LinkEffect (s t : State) : Prop where
  | stays (h : StaysLocal s t)
  | sends (h : SendsFrame s t)
  | supplies (bs : List Byte) (u : State) (h : SameLink s u) (ht : t = supply bs u)
  | receives (b : Byte) (rest : List Byte) (u : State) (h : SameLink s u) (hc : u.rxcnt < frameLen)
      (hq : u.rxstream = b :: rest) (ht : t = receive b rest u)

/-- The effects of an instruction: one that leaves the session alone, or the success of `open` (R271) or `close` (R276). -/
inductive ExecEffect (i : Instr) (s t : State) : Prop where
  | link (h : LinkEffect s t)
  | opens (port : Text) (baudRate : Nat) (a : Byte) (u : State) (hi : i = .openSession port baudRate a)
      (h : SameLink s u) (ha : a ≠ addrForbidden)
      (ht : t = { u with addr := a, sess := .opened, phase := .idle, rxcnt := 0, res := .done })
  | closes (u : State) (hi : i = .closeSession) (h : SameLink s u) (hp : u.phase = .idle)
      (ht : t = { u with sess := .closed, res := .done })

theorem SameLink.refl (s : State) : SameLink s s := ⟨rfl, rfl, rfl, rfl, rfl, rfl, rfl, rfl, rfl, rfl, rfl⟩

/-- A write of the registers that `SameLink` leaves out. -/
theorem SameLink.registers {s u : State} (h : SameLink s u) {opr : BitVec 32} {mode : BitVec 2} {a b : BitVec 32}
    {ta tb : BitVec 16} {style : BitVec 8} {turns : List Turn} {portFree rawTxn : Bool} {ret : Ret} :
    SameLink s { u with
      opr := opr, tpMode := mode, tpA := a, tpTA := ta, tpB := b, tpTB := tb, tpStyle := style, turns := turns
      portFree := portFree, rawTxn := rawTxn, ret := ret } :=
  ⟨h.sess, h.addr, h.phase, h.txbuf, h.rxbuf, h.rxcnt, h.cur, h.res, h.txstream, h.rxstream, h.cfg⟩

theorem SameLink.staysLocal {s t : State} (h : SameLink s t) : StaysLocal s t :=
  ⟨h.sess, h.addr, .inl ⟨h.phase, h.res⟩, .inl h.txbuf, h.rxbuf, h.rxcnt, .inl h.cur, h.txstream, h.rxstream, h.cfg⟩

theorem SameLink.stays {s t : State} (h : SameLink s t) : LinkEffect s t := .stays h.staysLocal

/-- The end of an operation, by a result or (`raise`) by an error. -/
theorem SameLink.deliver {s u : State} (h : SameLink s u) (r : Result) : LinkEffect s (deliver r u) :=
  .stays ⟨h.sess, h.addr, .inr rfl, .inl h.txbuf, h.rxbuf, h.rxcnt, .inl h.cur, h.txstream, h.rxstream, h.cfg⟩

theorem SameLink.raise {s u : State} (h : SameLink s u) (e : Err) : LinkEffect s (raise e u) := h.deliver (.error e)

/-! ### Each shared operation has one of the four effects -/

/-- The outcome, if it is a next state, comes from `s` by one of the four effects. -/
def LinkOut (s : State) (o : Out) : Prop := ∀ t, o = .next t → LinkEffect s t

theorem linkOut_next {s t : State} (h : LinkEffect s t) : LinkOut s (.next t) :=
  fun _ ht => Host.Outcome.next.inj ht ▸ h

theorem linkOut_refused (s : State) (r : Refusal) : LinkOut s (.refused r) := fun _ => nofun

theorem linkOut_fault (s : State) (f : Fault) : LinkOut s (.fault f) := fun _ => nofun

/-- The answer of a primitive that writes no register but `ret` (entry 9). -/
theorem linkOut_answer {s u : State} (h : SameLink s u) (r : Ret) : LinkOut s (.next (answer r u)) :=
  linkOut_next h.registers.stays

theorem gate_linkOut {s u : State} {k : State → Out} (h : SameLink s u) (hk : s.sess = .opened → LinkOut s (k u)) :
    LinkOut s (gate u k) := fun t ht =>
  have ⟨⟨ho, _⟩, hkt⟩ := gate_next ht
  hk (h.sess ▸ ho) t hkt

theorem withScale_linkOut {s u : State} {x : Rat} {sc n : Nat} {k : Nat → State → Out} (h : SameLink s u)
    (hk : ∀ w v, SameLink s v → LinkOut s (k w v)) : LinkOut s (withScale x sc n u k) := by
  obtain ⟨w, _, _, he⟩ | ⟨_, he⟩ := withScale_cases x sc n u k <;> rw [he]
  · exact hk w _ h.registers
  · exact linkOut_next (h.raise _)

theorem State.requestOf_length (s : State) (op : OpName) {data : List Byte} (h : data.length ≤ payloadCap) :
    (s.requestOf op data).length = frameLen := frameBytes_length _ _ h

/-- The issue step sends a whole frame, or raises with CUR latched already. -/
theorem issue_linkOut {s u : State} (op : OpName) (data : List Byte) (h : SameLink s u) (ho : s.sess = .opened) :
    LinkOut s (issue op data u) := by
  intro t ht
  obtain ⟨hd, _, _, rfl⟩ | ⟨_, rfl⟩ := issue_next ht
  · refine .sends ⟨ho, h.sess, h.addr, rfl, u.requestOf_length op hd, h.rxbuf, rfl, .inr ?_, h.res, ?_, h.rxstream, h.cfg⟩
    · exact h.cfg ▸ rfl
    · exact h.txstream ▸ rfl
  · exact .stays ⟨h.sess, h.addr, .inr rfl, .inl h.txbuf, h.rxbuf, h.rxcnt, .inr (h.cfg ▸ rfl), h.txstream, h.rxstream,
      h.cfg⟩

section
variable {s u : State} (h : SameLink s u)
include h

theorem setQuantity_linkOut (op : OpName) (x : Rat) (sc n : Nat) : LinkOut s (setQuantity op x sc n u) :=
  gate_linkOut h fun ho => withScale_linkOut h fun _ _ hv => issue_linkOut _ _ hv ho

theorem setFlag_linkOut (op : OpName) (b : Bool) : LinkOut s (setFlag op b u) :=
  gate_linkOut h fun ho => issue_linkOut _ _ h ho

theorem setEnum_linkOut (op : OpName) (code : Option Byte) (e : Err) : LinkOut s (setEnum op code e u) :=
  gate_linkOut h fun ho =>
    match code with
    | some _ => issue_linkOut _ _ h ho
    | none => linkOut_next (h.raise e)

theorem setIndex_linkOut (op : OpName) (r : Int) : LinkOut s (setIndex op r u) := by
  refine gate_linkOut h fun ho => ?_
  split_ifs
  · exact linkOut_next (h.raise _)
  · exact issue_linkOut _ _ h ho

theorem issueEmpty_linkOut (op : OpName) : LinkOut s (issueEmpty op u) :=
  gate_linkOut h fun ho => issue_linkOut _ _ h ho

theorem setTransient_linkOut (t : Text) (a ta b tb : Rat) (style : Text) :
    LinkOut s (setTransient t a ta b tb style u) := by
  refine gate_linkOut h fun ho => ?_
  split
  · exact linkOut_next (h.raise _)
  · refine withScale_linkOut h fun _ _ h => withScale_linkOut h fun _ _ h => withScale_linkOut h fun _ _ h =>
      withScale_linkOut h fun _ _ h => ?_
    split
    · exact linkOut_next (h.raise _)
    · exact issue_linkOut _ _ h.registers ho

theorem getTransient_linkOut (t : Text) : LinkOut s (getTransient t u) := by
  refine gate_linkOut h fun ho => ?_
  split
  · exact linkOut_next (h.raise _)
  · exact issue_linkOut _ _ h.registers ho

theorem execTransact_linkOut (f : Vector Byte 26) : LinkOut s (execTransact f u) :=
  gate_linkOut h fun ho => linkOut_next <| .sends
    ⟨ho, h.sess, h.addr, rfl, f.length_toList, h.rxbuf, rfl, .inl h.cur, h.res, h.txstream ▸ rfl, h.rxstream, h.cfg⟩

theorem execBuild_linkOut (d : Desc) (data : List Byte) : LinkOut s (execBuild d data u) := by
  unfold execBuild
  obtain ⟨_, he⟩ | ⟨_, he⟩ | ⟨hd, _, _, he⟩ := build_cases d data u
    (fun s => .next (answer .nothing s)) (fun e => .next (answer (.error e) u)) <;> rw [he]
  · exact linkOut_refused _ _
  · exact linkOut_answer h _
  · exact linkOut_next <| .stays ⟨h.sess, h.addr, .inl ⟨h.phase, h.res⟩, .inr (frameBytes_length _ _ hd), h.rxbuf, h.rxcnt,
      .inl h.cur, h.txstream, h.rxstream, h.cfg⟩

theorem execEncInt_linkOut (v : Int) (n : IntWidth) : LinkOut s (execEncInt v n u) := by
  unfold execEncInt
  split
  · exact linkOut_answer h _
  · exact linkOut_answer h _

theorem execEncodeFrame_linkOut (opc addr : Byte) (p : List Byte) : LinkOut s (execEncodeFrame opc addr p u) := by
  unfold execEncodeFrame
  split
  · exact linkOut_answer h _
  · exact linkOut_answer h _
  · exact linkOut_refused _ _

theorem execDecodeFrame_linkOut (raw : List Byte) : LinkOut s (execDecodeFrame raw u) := by
  unfold execDecodeFrame
  split
  · exact linkOut_answer h _
  · exact linkOut_answer h _

theorem execScale_linkOut (x : Rat) (sc n : Nat) : LinkOut s (execScale x sc n u) := by
  unfold execScale
  split
  · exact linkOut_answer h.registers _
  · exact linkOut_answer h _

end

/-- Everything `open` can answer as a next state. -/
theorem execOpenSession_next {port : Text} {baudRate : Nat} {a : Byte} {s t : State}
    (h : execOpenSession port baudRate a s = .next t) :
    (a ≠ addrForbidden ∧ t = { s with addr := a, sess := .opened, phase := .idle, rxcnt := 0, res := .done }) ∨
      t = raise .transportOpenError s := by
  unfold execOpenSession at h
  split_ifs at h with _ _ ha
  · exact .inl ⟨ha, (Host.Outcome.next.inj h).symm⟩
  · exact .inr (Host.Outcome.next.inj h).symm

theorem execCloseSession_next {s t : State} (h : execCloseSession s = .next t) :
    s.phase = .idle ∧ t = { s with sess := .closed, res := .done } := by
  unfold execCloseSession at h
  split_ifs at h with hp
  cases hs : s.phase with
  | idle => exact ⟨rfl, hs ▸ (Host.Outcome.next.inj h).symm⟩
  | rx => exact absurd hs hp

/-- Everything an instruction can do to the session and the link. -/
theorem exec_effect {i : Instr} {s u t : State} (h : SameLink s u) (ht : exec i u = .next t) : ExecEffect i s t :=
  match i with
  | .setRemoteControl _ | .setLoadState _ | .setLoadOnTimerState _ => .link (setFlag_linkOut h _ _ t ht)
  | .setMaxVoltage _ | .setMaxCurrent _ | .setMaxPower _ | .setCCCurrent _ | .setCVVoltage _ | .setCWPower _
  | .setCRResistance _ | .setBatteryTestVoltage _ | .setLoadOnTimer _ => .link (setQuantity_linkOut h _ _ _ _ t ht)
  | .setMode _ | .setTriggerSource _ | .setFunction _ => .link (setEnum_linkOut h _ _ _ t ht)
  | .saveSettings _ | .recallSettings _ => .link (setIndex_linkOut h _ _ t ht)
  | .getMaxVoltage | .getMaxCurrent | .getMaxPower | .getMode | .getCCCurrent | .getCVVoltage | .getCWPower
  | .getCRResistance | .getBatteryTestVoltage | .getLoadOnTimer | .getLoadOnTimerState | .getTriggerSource
  | .triggerLoad | .getFunction | .getInputValues | .getProductInformation => .link (issueEmpty_linkOut h _ t ht)
  | .setTransientCc _ _ _ _ _ _ | .setTransientCv _ _ _ _ _ _ | .setTransientCw _ _ _ _ _ _
  | .setTransientCr _ _ _ _ _ _ => .link (setTransient_linkOut h _ _ _ _ _ _ t ht)
  | .getTransientCc _ | .getTransientCv _ | .getTransientCw _ | .getTransientCr _ =>
    .link (getTransient_linkOut h _ t ht)
  | .openSession port baudRate a =>
    match execOpenSession_next (port := port) (baudRate := baudRate) ht with
    | .inl ⟨ha, ht⟩ => .opens port baudRate a u rfl h ha ht
    | .inr ht => .link (ht ▸ h.raise _)
  | .closeSession =>
    have ⟨hp, ht⟩ := execCloseSession_next ht
    .closes u rfl h hp ht
  | .transact _ => .link (execTransact_linkOut h _ t ht)
  | .build _ _ => .link (execBuild_linkOut h _ _ t ht)
  | .encInt _ _ => .link (execEncInt_linkOut h _ _ t ht)
  | .encodeFrame _ _ _ => .link (execEncodeFrame_linkOut h _ _ _ t ht)
  | .decodeFrame _ => .link (execDecodeFrame_linkOut h _ t ht)
  | .scale _ _ _ => .link (execScale_linkOut h _ _ _ t ht)
  | .tpDec _ => .link (linkOut_answer (u := tpDecode _ u) h.registers _ t ht)
  | .statusReply _ _ => .link (.supplies _ u h (Host.Outcome.next.inj ht).symm)
  | .csum8 _ | .csumOk _ | .hdrDet _ | .decInt _ | .statusMap _ | .lookup _ | .unscale _ _ | .tpEnc | .fwText _ _ =>
    .link (linkOut_answer h _ t ht)

/-! ### Every step has one of these effects -/

theorem complete_linkOut {s u : State} (h : SameLink s u) : LinkOut s (complete u) := by
  obtain ⟨_, he⟩ | ⟨e, _, _, he⟩ | ⟨_, r, _, _, he⟩ | ⟨p, _, _, _, _, he⟩ | ⟨_, _, _, _, he⟩ := complete_cases u <;> rw [he]
  · exact linkOut_next <| .stays ⟨h.sess, h.addr, .inr rfl, .inl h.txbuf, h.rxbuf, h.rxcnt, .inl h.cur, h.txstream,
      h.rxstream, h.cfg⟩
  · exact linkOut_next (h.raise e)
  · exact linkOut_next (h.deliver r)
  · exact linkOut_next (SameLink.deliver (u := tpDecode p.payload u) h.registers _)
  · exact linkOut_fault _ _

theorem sfcStep_linkOut {s u : State} {blocked : Out} (h : SameLink s u) (hb : LinkOut s blocked) :
    LinkOut s (sfcStep u blocked) := by
  obtain ⟨_, he⟩ | ⟨_, _, _, he⟩ | ⟨b, rest, _, hc, hq, he⟩ | ⟨_, _, he⟩ := sfcStep_cases u blocked <;> rw [he]
  · exact hb
  · exact hb
  · exact linkOut_next (.receives b rest u h hc hq rfl)
  · exact complete_linkOut h

theorem timeoutEvent_effect {s u : State} (h : SameLink s u) : LinkEffect s (timeoutEvent u) := by
  obtain ⟨_, _, _, he⟩ | ⟨_, _, _, he⟩ | ⟨_, he⟩ := timeoutEvent_cases u <;> rw [he]
  · exact h.raise _
  · exact SameLink.raise (u := answer (.error .transportTimeout) u) h.registers _
  · exact h.stays

/-- Everything a step can do to the session and the link: only a command can write SESS or ADDR. -/
theorem step_effect {s t : State} (h : step s = .next t) :
    LinkEffect s t ∨ ∃ c rest i, s.turns = .cmd c :: rest ∧ fetch s.cfg c = .ok i ∧ ExecEffect i s t := by
  have hs (rest : List Turn) : SameLink s { s with turns := rest } := (SameLink.refl s).registers
  cases ht : s.turns with
  | nil => exact .inl (sfcStep_linkOut (.refl s) (linkOut_fault _ _) t ((step_nil ht).symm.trans h))
  | cons turn rest =>
    cases turn with
    | cmd c =>
      cases hf : fetch s.cfg c with
      | ok i => exact .inr ⟨c, rest, i, rfl, hf, exec_effect (hs rest) ((step_cmd ht hf).symm.trans h)⟩
      | error e => cases (step_cmd_undecodable ht hf).symm.trans h
    | peer b => exact .inl (.supplies [b] _ (hs rest) (Host.Outcome.next.inj ((step_peer ht).symm.trans h)).symm)
    | timeout => exact .inl (linkOut_next (timeoutEvent_effect (hs rest)) t ((step_timeout ht).symm.trans h))
    | sfc => exact .inl (sfcStep_linkOut (hs rest) (linkOut_next (hs rest).stays) t ((step_sfc ht).symm.trans h))
    | port isFree =>
      exact .inl (linkOut_next (SameLink.refl s).registers.stays t ((step_port ht).symm.trans h))

/-! ### The invariant -/

theorem StaysLocal.inv {s t : State} (h : StaysLocal s t) (hs : s.Inv) : t.Inv where
  cfgOk := h.cfg ▸ hs.cfgOk
  addrLegal := h.addr ▸ hs.addrLegal
  rxSession hrx := by
    obtain ⟨hp, _⟩ | hp := h.ending
    · exact h.sess.trans (hs.rxSession (hp.symm.trans hrx))
    · cases hp.symm.trans hrx
  txbufWhole := h.txbuf.elim (fun he => he ▸ hs.txbufWhole) id
  rxbufWhole := h.rxbuf ▸ hs.rxbufWhole
  rxcntRange := h.rxcnt ▸ hs.rxcntRange
  txWhole := h.txstream ▸ hs.txWhole
  latched := h.cfg ▸ h.latch.elim (fun he => he ▸ hs.latched) id

theorem SendsFrame.inv {s t : State} (h : SendsFrame s t) (hs : s.Inv) : t.Inv where
  cfgOk := h.cfg ▸ hs.cfgOk
  addrLegal := h.addr ▸ hs.addrLegal
  rxSession _ := h.sess.trans h.opened
  txbufWhole := h.txbuf
  rxbufWhole := h.rxbuf ▸ hs.rxbufWhole
  rxcntRange := h.rxcnt ▸ Nat.zero_le _
  txWhole := by rw [h.txstream, List.length_append, h.txbuf, Nat.add_mod_right, hs.txWhole]
  latched := h.cfg ▸ h.latch.elim (fun he => he ▸ hs.latched) id

theorem SameLink.inv {s t : State} (h : SameLink s t) (hs : s.Inv) : t.Inv := h.staysLocal.inv hs

theorem supply_inv {s : State} (bs : List Byte) (h : s.Inv) : (supply bs s).Inv :=
  { h with }

theorem receive_inv {s : State} (b : Byte) (rest : List Byte) (hc : s.rxcnt < frameLen) (h : s.Inv) :
    (receive b rest s).Inv :=
  { h with
    rxbufWhole := (List.length_set ..).trans h.rxbufWhole
    rxcntRange := hc }

theorem LinkEffect.inv {s t : State} (h : LinkEffect s t) (hs : s.Inv) : t.Inv := by
  cases h with
  | stays h => exact h.inv hs
  | sends h => exact h.inv hs
  | supplies bs u h ht => exact ht ▸ supply_inv bs (h.inv hs)
  | receives b rest u h hc _ ht => exact ht ▸ receive_inv b rest hc (h.inv hs)

theorem ExecEffect.inv {i : Instr} {s t : State} (h : ExecEffect i s t) (hs : s.Inv) : t.Inv := by
  cases h with
  | link h => exact h.inv hs
  | opens _ _ a u _ h ha ht =>
    subst ht
    exact { h.inv hs with addrLegal := ha, rxSession := fun _ => rfl, rxcntRange := Nat.zero_le _ }
  | closes u _ h hp ht =>
    subst ht
    exact { h.inv hs with rxSession := fun hrx => nomatch hp.symm.trans hrx }

/-- Settles O52: each of the effects of `step_effect` keeps the invariant. -/
theorem stepKeepsTheInvariant : Obligations.StepKeepsTheInvariant := by
  intro s t hs h
  obtain he | ⟨_, _, _, _, _, he⟩ := step_effect h
  · exact he.inv hs
  · exact he.inv hs

/-! ### The streams and the session -/

/-- TXSTREAM grows by nothing or one frame (R34); RXSTREAM grows, or loses its oldest byte (R35). -/
def StreamsOnlyMoveOn (s t : State) : Prop :=
  (∃ x, t.txstream = s.txstream ++ x ∧ (x = [] ∨ x.length = 26)) ∧
    ((∃ y, t.rxstream = s.rxstream ++ y) ∨ ∃ b, s.rxstream = b :: t.rxstream)

/-- Four effects on the two streams: nothing, a frame sent, bytes supplied, or the oldest byte taken (R34, R35). -/
theorem LinkEffect.streams {s t : State} (h : LinkEffect s t) : StreamsOnlyMoveOn s t := by
  cases h with
  | stays h => exact ⟨⟨[], by simpa using h.txstream, .inl rfl⟩, .inl ⟨[], by simpa using h.rxstream⟩⟩
  | sends h => exact ⟨⟨t.txbuf, h.txstream, .inr h.txbuf⟩, .inl ⟨[], by simpa using h.rxstream⟩⟩
  | supplies bs u h ht =>
    subst ht
    exact ⟨⟨[], by simpa using h.txstream, .inl rfl⟩, .inl ⟨bs, by simp [h.rxstream]⟩⟩
  | receives b rest u h _ hq ht =>
    subst ht
    exact ⟨⟨[], by simpa using h.txstream, .inl rfl⟩, .inr ⟨b, h.rxstream.symm.trans hq⟩⟩

/-- `open` and `close` touch neither stream (R271, R276). -/
theorem ExecEffect.streams {i : Instr} {s t : State} (h : ExecEffect i s t) : StreamsOnlyMoveOn s t := by
  cases h with
  | link h => exact h.streams
  | opens _ _ _ u _ h _ ht => subst ht; exact h.stays.streams
  | closes u _ h _ ht => subst ht; exact h.stays.streams

/-- Settles O55: read off the effects of `step_effect`. -/
theorem streamsAreNeverRewrittenOrFlushed : Obligations.StreamsAreNeverRewrittenOrFlushed := by
  intro s t h
  obtain he | ⟨_, _, _, _, _, he⟩ := step_effect h
  · exact he.streams
  · exact he.streams

theorem LinkEffect.session {s t : State} (h : LinkEffect s t) : t.addr = s.addr ∧ t.sess = s.sess := by
  cases h with
  | stays h => exact ⟨h.addr, h.sess⟩
  | sends h => exact ⟨h.addr, h.sess⟩
  | supplies bs u h ht => exact ht ▸ ⟨h.addr, h.sess⟩
  | receives b rest u h _ _ ht => exact ht ▸ ⟨h.addr, h.sess⟩

/-- An instruction that moves ADDR is `open`; one that moves SESS is `open` or `close` (R21, R22). -/
theorem ExecEffect.session {i : Instr} {s t : State} (h : ExecEffect i s t) :
    (t.addr ≠ s.addr → ∃ p b a, i = .openSession p b a) ∧
      (t.sess ≠ s.sess → i = .closeSession ∨ ∃ p b a, i = .openSession p b a) := by
  cases h with
  | link h => exact ⟨fun hn => absurd h.session.1 hn, fun hn => absurd h.session.2 hn⟩
  | opens p b a _ hi => exact ⟨fun _ => ⟨p, b, a, hi⟩, fun _ => .inr ⟨p, b, a, hi⟩⟩
  | closes u hi h _ ht => exact ⟨fun hn => absurd (ht ▸ h.addr) hn, fun _ => .inl hi⟩

/-- Settles O56: of the effects of `step_effect` only those of `open` and `close` write SESS or ADDR. -/
theorem onlyOpenAndCloseMoveTheSession : Obligations.OnlyOpenAndCloseMoveTheSession := by
  intro s t h
  obtain he | ⟨c, rest, i, ht, hf, he⟩ := step_effect h
  · exact ⟨fun hn => absurd he.session.1 hn, fun hn => absurd he.session.2 hn⟩
  · obtain ⟨haddr, hsess⟩ := he.session
    refine ⟨fun hn => ?_, fun hn => ⟨c, rest, i, ht, hf, hsess hn⟩⟩
    obtain ⟨p, b, a, rfl⟩ := haddr hn
    exact ⟨c, rest, p, b, a, ht, hf⟩

/-! ### The gate -/

theorem gate_closed {s : State} (h : s.sess = .closed) (k : State → Out) : gate s k = .refused .noSession := if_pos h

theorem gate_overlap {s : State} (ho : s.sess = .opened) (hp : s.phase = .rx) (k : State → Out) :
    gate s k = .refused .overlap := by
  simp [gate, ho, hp]

/-- Every request row stands behind the gate (R151 step 0). -/
theorem exec_request_gated {i : Instr} (h : isRequest i = true) (s : State) : ∃ k, exec i s = gate s k :=
  match i with
  | .setRemoteControl _ | .setLoadState _ | .setLoadOnTimerState _ | .setMaxVoltage _ | .setMaxCurrent _
  | .setMaxPower _ | .setCCCurrent _ | .setCVVoltage _ | .setCWPower _ | .setCRResistance _
  | .setBatteryTestVoltage _ | .setLoadOnTimer _ | .setMode _ | .setTriggerSource _ | .setFunction _
  | .saveSettings _ | .recallSettings _ | .getMaxVoltage | .getMaxCurrent | .getMaxPower | .getMode | .getCCCurrent
  | .getCVVoltage | .getCWPower | .getCRResistance | .getBatteryTestVoltage | .getLoadOnTimer | .getLoadOnTimerState
  | .getTriggerSource | .triggerLoad | .getFunction | .getInputValues | .getProductInformation
  | .setTransientCc _ _ _ _ _ _ | .setTransientCv _ _ _ _ _ _ | .setTransientCw _ _ _ _ _ _
  | .setTransientCr _ _ _ _ _ _ | .getTransientCc _ | .getTransientCv _ | .getTransientCw _ | .getTransientCr _ =>
    ⟨_, by rfl⟩
  | .statusReply _ _ | .openSession _ _ _ | .closeSession | .csum8 _ | .csumOk _ | .hdrDet _ | .encInt _ _ | .decInt _
  | .encodeFrame _ _ _ | .decodeFrame _ | .statusMap _ | .lookup _ | .scale _ _ _ | .unscale _ _ | .build _ _ | .tpEnc
  | .tpDec _ | .fwText _ _ | .transact _ => nomatch h

/-- The request rows, and TRANSACT used on its own (entry 10), stand behind the gate. -/
theorem exec_gated {i : Instr} (h : isRequest i = true ∨ ∃ f, i = .transact f) (s : State) :
    ∃ k, exec i s = gate s k := by
  obtain h | ⟨f, rfl⟩ := h
  · exact exec_request_gated h s
  · exact ⟨_, by rfl⟩

/-- Settles O35: the gate's first refusal. -/
theorem noSessionNoOperation : Obligations.NoSessionNoOperation := by
  intro i s hi hs
  obtain ⟨k, hk⟩ := exec_gated hi s
  rw [hk, gate_closed hs]

theorem execOpenSession_overlap {s : State} (hp : s.phase = .rx) (port : Text) (baudRate : Nat) (a : Byte) :
    execOpenSession port baudRate a s = .refused .overlap := if_pos hp

theorem execCloseSession_overlap {s : State} (hp : s.phase = .rx) : execCloseSession s = .refused .overlap := if_pos hp

/-- Settles O36: the gate's second refusal, and the same check in `open` and `close`. -/
theorem overlapIsRefused : Obligations.OverlapIsRefused := by
  intro i s hi ho hp
  have gated (hg : isRequest i = true ∨ ∃ f, i = .transact f) : exec i s = .refused .overlap := by
    obtain ⟨k, hk⟩ := exec_gated hg s
    rw [hk, gate_overlap ho hp]
  obtain hi | ⟨p, b, a, rfl⟩ | rfl | hi := hi
  · exact gated (.inl hi)
  · exact execOpenSession_overlap hp p b a
  · exact execCloseSession_overlap hp
  · exact gated (.inr hi)

/-! ### Full next states -/

/-- Settles O33: the checks of `open` in their order, then the transport's answer. -/
theorem openClaimsThePort : Obligations.OpenClaimsThePort := by
  intro port baud a s hp
  refine ⟨fun ho => ?_, fun hc ha => ?_, fun hc ha hf => ?_, fun hc ha hf => ?_⟩
  · simp [exec, execOpenSession, hp, ho]
  · simp [exec, execOpenSession, hp, hc, ha, addrForbidden]
  · simp [exec, execOpenSession, hp, hc, hf, show a ≠ addrForbidden from ha]
  · simp [exec, execOpenSession, hp, hc, hf, show a ≠ addrForbidden from ha, raise]

theorem execBuild_frame {s : State} {d : Desc} {data : List Byte} (ho : d.opcode ∈ s.cfg.recog)
    (ha : s.addr ≠ addrForbidden) (hd : data.length ≤ payloadCap) :
    execBuild d data s = .next { s with txbuf := frameBytes d.opcode s.addr data, ret := .nothing } := by
  simp only [execBuild, build, encodeFrame_frame ha ho hd]
  rfl

theorem execTransact_ready {s : State} (h : s.Ready) (f : Vector Byte 26) :
    execTransact f s = .next { s with
      txbuf := f.toList, txstream := s.txstream ++ f.toList, rxcnt := 0, phase := .rx, rawTxn := true } :=
  gate_ready h _

/-- Settles O41: BUILD inside its preconditions, TRANSACT past the gate, and the device's frame supplied. -/
theorem buildTransactAndStatusFrame : Obligations.BuildTransactAndStatusFrame := fun _ =>
  ⟨fun _ _ ho ha hd => execBuild_frame ho ha hd, fun f hr => execTransact_ready hr f, fun _ _ => rfl⟩

/-- Settles O45: the step's equation for a peer turn. -/
theorem peerBytesWaitInOrder : Obligations.PeerBytesWaitInOrder := fun _ _ _ ht => step_peer ht

/-! ### Reset -/

/-- Settles O53: the default parameters are legal, and the rest is evaluated on the one reset state. -/
theorem resetMeetsTheInvariant : Obligations.ResetMeetsTheInvariant where
  cfgOk := defaultConfig_ok
  addrLegal := by decide
  rxSession := nofun
  txbufWhole := List.length_replicate
  rxbufWhole := List.length_replicate
  rxcntRange := Nat.zero_le _
  txWhole := rfl
  latched := rfl

/-- Settles O54. -/
theorem resetState : Obligations.ResetState := ⟨rfl, rfl, rfl, rfl, rfl, rfl⟩

end Sys2Proof.Machine
end

section
/-! PROOFS of the statements on the memory (20_memory.md): the register slots (R60), the configuration (R65), and the two
streams of a transaction, as a request writes them and as the SFC's own steps read them (R62). -/

namespace Sys2Proof.Machine

/-! ### The register slots -/

/-- The one data byte of a register index (R82). -/
theorem leBytes_one_toNat {r : Int} (h : 0 ≤ r) : leBytes 1 r.toNat = [BitVec.ofInt 8 r] := by
  obtain ⟨n, rfl⟩ := Int.eq_ofNat_of_zero_le h
  simp [leBytes]

/-- Settles O29: both slot operations are `setIndex`, inside and outside its range. -/
theorem registerIndexIsChecked : Obligations.RegisterIndexIsChecked := by
  intro r s hs hr
  split_ifs with h
  · have inside (op : OpName) : setIndex op r s = .next (s.issued op [BitVec.ofInt 8 r]) :=
      leBytes_one_toNat (show 0 ≤ r by omega) ▸ setIndex_inside hr hs op h
    exact ⟨inside _, inside _⟩
  · have hout : r < regMin ∨ regMax < r := by simp only [regMin, regMax]; omega
    exact ⟨setIndex_outside hr _ hout, setIndex_outside hr _ hout⟩

/-! ### The configuration -/

theorem LinkEffect.cfg {s t : State} (h : LinkEffect s t) : t.cfg = s.cfg := by
  cases h with
  | stays h => exact h.cfg
  | sends h => exact h.cfg
  | supplies bs u h ht => exact ht ▸ h.cfg
  | receives b rest u h _ _ ht => exact ht ▸ h.cfg

theorem ExecEffect.cfg {i : Instr} {s t : State} (h : ExecEffect i s t) : t.cfg = s.cfg := by
  cases h with
  | link h => exact h.cfg
  | opens _ _ _ u _ h _ ht => exact ht ▸ h.cfg
  | closes u _ h _ ht => exact ht ▸ h.cfg

/-- Settles O57: none of the effects of `step_effect` writes the parameters, and `LOOKUP` reads nothing else. -/
theorem configurationIsNeverWritten : Obligations.ConfigurationIsNeverWritten := by
  intro s t h
  have hc : t.cfg = s.cfg := by
    obtain he | ⟨_, _, _, _, _, he⟩ := step_effect h
    · exact he.cfg
    · exact he.cfg
  exact ⟨hc, fun op => by rw [hc]⟩

/-! ### What a request writes -/

/-- The checksum `ENCODE` puts at the end of a frame is the one `CSUMOK` looks for (R57, R112). -/
theorem csumOk_frameBytes (opc addr : Byte) {p : List Byte} (h : p.length ≤ payloadCap) :
    csumOk (frameBytes opc addr p) = true := by
  have hbody : ([header, addr, opc] ++ p ++ List.replicate (payloadCap - p.length) 0).length = csumOff := by
    simp only [payloadCap] at h
    simp [payloadCap, csumOff]
    omega
  simp only [csumOk, frameBytes, ← hbody, List.take_left', List.getD_append_right _ _ _ _ le_rfl]
  simp

/-- The request of a legal configuration to a legal address is a frame the SFC may send (R57, R80). -/
theorem State.Sound.wireFrame_requestOf {s : State} (hs : s.Sound) (op : OpName) {data : List Byte}
    (hd : data.length ≤ payloadCap) : wireFrame s.cfg.recog (s.requestOf op data) := by
  obtain ⟨hc, ha⟩ := hs
  refine ⟨s.requestOf_length op hd, frameBytes_header .., ?_, ?_, csumOk_frameBytes _ _ hd⟩
  · rwa [State.requestOf, frameBytes_address]
  · rw [State.requestOf, frameBytes_opcode, lookup_opcode]
    exact opcOf_recognised hc op

theorem SameLink.sound {s u : State} (h : SameLink s u) (hs : s.Sound) : u.Sound :=
  ⟨h.cfg ▸ hs.1, h.addr ▸ hs.2⟩

/-- Everything a request can do (R151): after staging its operands in `u` it raises a local error, or it issues data that
the payload holds. -/
inductive RequestEffect (s t : State) : Prop where
  | fails (e : Err) (u : State) (h : SameLink s u) (he : errClass e = .localCheck) (ht : t = raise e u)
  | issues (op : OpName) (data : List Byte) (u : State) (h : SameLink s u) (hd : data.length ≤ payloadCap)
      (ht : t = u.issued op data)

/-- The outcome, if it is a next state, comes from `s` as that of a request does. -/
def RequestOut (s : State) (o : Out) : Prop := ∀ t, o = .next t → RequestEffect s t

theorem gate_requestOut {s : State} {k : State → Out} (hk : RequestOut s (k s)) : RequestOut s (gate s k) :=
  fun t ht => hk t (gate_next ht).2

section
variable {s u : State} (h : SameLink s u)
include h

theorem raise_requestOut {e : Err} (he : errClass e = .localCheck) : RequestOut s (.next (raise e u)) :=
  fun _ ht => .fails e u h he (Host.Outcome.next.inj ht).symm

theorem issue_requestOut (hs : s.Sound) (op : OpName) {data : List Byte} (hd : data.length ≤ payloadCap) :
    RequestOut s (issue op data u) := fun _ ht =>
  .issues op data u h hd (Host.Outcome.next.inj ((issue_sound (h.sound hs) op hd).symm.trans ht)).symm

/-- The scaler stages OPR, or ends the request with a local error. -/
theorem withScale_requestOut {x : Rat} {sc n : Nat} {k : Nat → State → Out}
    (hk : ∀ w v, SameLink s v → RequestOut s (k w v)) : RequestOut s (withScale x sc n u k) := by
  obtain ⟨w, _, _, he⟩ | ⟨_, he⟩ := withScale_cases x sc n u k <;> rw [he]
  · exact hk w _ h.registers
  · exact raise_requestOut h rfl

end

section
variable {s : State} (hs : s.Sound)
include hs

theorem setQuantity_requestOut (op : OpName) (x : Rat) (sc : Nat) {n : Nat} (hn : n ≤ payloadCap) :
    RequestOut s (setQuantity op x sc n s) :=
  gate_requestOut <| withScale_requestOut (.refl s) fun _ _ h =>
    issue_requestOut h hs op ((leBytes_length _ _).trans_le hn)

theorem setFlag_requestOut (op : OpName) (b : Bool) : RequestOut s (setFlag op b s) :=
  gate_requestOut <| issue_requestOut (.refl s) hs op (by simp [payloadCap])

theorem setEnum_requestOut (op : OpName) (code : Option Byte) {e : Err} (he : errClass e = .localCheck) :
    RequestOut s (setEnum op code e s) :=
  gate_requestOut <|
    match code with
    | some _ => issue_requestOut (.refl s) hs op (by simp [payloadCap])
    | none => raise_requestOut (.refl s) he

theorem setIndex_requestOut (op : OpName) (r : Int) : RequestOut s (setIndex op r s) := by
  refine gate_requestOut ?_
  split_ifs
  · exact raise_requestOut (.refl s) rfl
  · exact issue_requestOut (.refl s) hs op (by simp [payloadCap])

theorem issueEmpty_requestOut (op : OpName) : RequestOut s (issueEmpty op s) :=
  gate_requestOut <| issue_requestOut (.refl s) hs op (Nat.zero_le _)

/-- The data of a profile is as long as its layout, which the payload holds (R54). -/
theorem setTransient_requestOut (t : Text) (a ta b tb : Rat) (style : Text) :
    RequestOut s (setTransient t a ta b tb style s) := by
  refine gate_requestOut ?_
  split
  · exact raise_requestOut (.refl s) rfl
  · refine withScale_requestOut (.refl s) fun _ _ h => withScale_requestOut h fun _ _ h =>
      withScale_requestOut h fun _ _ h => withScale_requestOut h fun _ _ h => ?_
    split
    · exact raise_requestOut h rfl
    · exact issue_requestOut h.registers hs _ ((tpPack_length ..).trans_le (h.sound hs).1.tpInside)

theorem getTransient_requestOut (t : Text) : RequestOut s (getTransient t s) := by
  refine gate_requestOut ?_
  split
  · exact raise_requestOut (.refl s) rfl
  · exact issue_requestOut (SameLink.refl s).registers hs _ (Nat.zero_le _)

/-- Each request row is one of the shared operations. -/
theorem exec_requestOut {i : Instr} (hi : isRequest i = true) : RequestOut s (exec i s) :=
  match i with
  | .setRemoteControl _ | .setLoadState _ | .setLoadOnTimerState _ => setFlag_requestOut hs _ _
  | .setMaxVoltage _ | .setMaxCurrent _ | .setMaxPower _ | .setCCCurrent _ | .setCVVoltage _ | .setCWPower _
  | .setCRResistance _ | .setBatteryTestVoltage _ | .setLoadOnTimer _ => setQuantity_requestOut hs _ _ _ (by decide)
  | .setMode _ | .setTriggerSource _ | .setFunction _ => setEnum_requestOut hs _ _ rfl
  | .saveSettings _ | .recallSettings _ => setIndex_requestOut hs _ _
  | .getMaxVoltage | .getMaxCurrent | .getMaxPower | .getMode | .getCCCurrent | .getCVVoltage | .getCWPower
  | .getCRResistance | .getBatteryTestVoltage | .getLoadOnTimer | .getLoadOnTimerState | .getTriggerSource
  | .triggerLoad | .getFunction | .getInputValues | .getProductInformation => issueEmpty_requestOut hs _
  | .setTransientCc _ _ _ _ _ _ | .setTransientCv _ _ _ _ _ _ | .setTransientCw _ _ _ _ _ _
  | .setTransientCr _ _ _ _ _ _ => setTransient_requestOut hs _ _ _ _ _ _
  | .getTransientCc _ | .getTransientCv _ | .getTransientCw _ | .getTransientCr _ => getTransient_requestOut hs _
  | .statusReply _ _ | .openSession _ _ _ | .closeSession | .csum8 _ | .csumOk _ | .hdrDet _ | .encInt _ _ | .decInt _
  | .encodeFrame _ _ _ | .decodeFrame _ | .statusMap _ | .lookup _ | .scale _ _ _ | .unscale _ _ | .build _ _ | .tpEnc
  | .tpDec _ | .fwText _ _ | .transact _ => nomatch hi

end

/-- Settles O37: a request that fails leaves the link as it was, and one that issues sends its own valid frame. -/
theorem requestsSendOneValidFrameOrNothing : Obligations.RequestsSendOneValidFrameOrNothing := by
  intro i s t hi hs ht
  cases exec_requestOut hs hi t ht with
  | fails e u h he ht =>
    subst ht
    exact .inl ⟨rfl, beq_iff_eq.mpr he, h.txstream, h.rxstream⟩
  | issues op data u h hd ht =>
    subst ht
    have hframe := h.cfg ▸ (h.sound hs).wireFrame_requestOf op hd
    have haddr : (u.requestOf op data).getD 1 0 = s.addr := (frameBytes_address ..).trans h.addr
    exact .inr ⟨rfl, rfl, h.rxstream, hframe, haddr, congrArg (· ++ u.requestOf op data) h.txstream⟩

/-! ### What the SFC's own steps read -/

theorem State.SfcMovesFor.moves {n : Nat} {s : State} (h : s.SfcMovesFor (n + 1)) : s.SfcMoves := by
  cases ht : s.turns with
  | nil => exact .inl ht
  | cons t rest =>
    have hsfc : t = .sfc := h t (by simp [ht])
    exact .inr ⟨rest, by rw [ht, hsfc]⟩

/-- The turns behind the first are the SFC's own for one step less. -/
theorem State.SfcMovesFor.tail {n : Nat} {s u : State} (h : s.SfcMovesFor (n + 1)) (hu : u.turns = s.turns.tail) :
    u.SfcMovesFor n := by
  intro t ht
  rw [hu, ← List.drop_one, List.take_drop, Nat.add_comm] at ht
  exact h t (List.mem_of_mem_drop ht)

/-- Where the SFC has a byte to receive (R274). -/
theorem sfcStep_receives {s : State} {b : Byte} {rest : List Byte} (hp : s.phase = .rx) (hc : s.rxcnt < frameLen)
    (hq : s.rxstream = b :: rest) (blocked : Out) : sfcStep s blocked = .next (receive b rest s) := by
  simp [sfcStep, hp, hc, hq]

/-- The receive step on the SFC's own turn, or with no turn left (R274, entry 2). -/
theorem step_receives {s : State} {b : Byte} {rest : List Byte} (hm : s.SfcMoves) (hp : s.phase = .rx)
    (hc : s.rxcnt < frameLen) (hq : s.rxstream = b :: rest) :
    step s = .next (receive b rest { s with turns := s.turns.tail }) := by
  obtain ht | ⟨turns, ht⟩ := hm
  · rw [step_nil ht, sfcStep_receives hp hc hq]
    simp [receive, ht]
  · rw [step_sfc ht, ht]
    exact sfcStep_receives (s := { s with turns := turns }) hp hc hq _

theorem run_succ_of_step {M : Host.Core} {s t : M.State} (n : Nat) (h : M.step s = .next t) :
    M.run (n + 1) s = M.run n t := by
  rw [Host.Core.run, h]

/-- The bytes of a buffer that a write at `n` and then one of `bytes` behind it leave (R274). -/
theorem set_take_append_drop {buf : List Byte} {n : Nat} (b : Byte) (bytes : List Byte) (h : n < buf.length) :
    (buf.set n b).take (n + 1) ++ bytes ++ (buf.set n b).drop (n + (bytes.length + 1)) =
      buf.take n ++ b :: bytes ++ buf.drop (n + (bytes.length + 1)) := by
  have htake : (buf.set n b).take (n + 1) = buf.take n ++ [b] := by
    rw [List.take_succ_eq_append_getElem (by simpa using h), List.take_set_of_le le_rfl, List.getElem_set_self]
  rw [htake, List.drop_set_of_lt (by omega), List.append_assoc (buf.take n), List.singleton_append]

/-- As many of the SFC's own steps as there are bytes to come read those bytes into RXBUF from RXCNT on, in order, and
take nothing else (R58, R274). -/
theorem run_reads (bytes : List Byte) {rest : List Byte} {s : State} (hm : s.SfcMovesFor bytes.length)
    (hp : s.phase = .rx) (hc : s.rxcnt + bytes.length ≤ frameLen) (hb : s.rxbuf.length = frameLen)
    (hq : s.rxstream = bytes ++ rest) :
    Sys2Proof.core.run bytes.length s = .next { s with
      turns := s.turns.drop bytes.length
      rxbuf := s.rxbuf.take s.rxcnt ++ bytes ++ s.rxbuf.drop (s.rxcnt + bytes.length)
      rxcnt := s.rxcnt + bytes.length
      rxstream := rest } := by
  induction bytes generalizing s with
  | nil =>
    have hrest : s.rxstream = rest := hq
    simp [Host.Core.run, ← hrest]
  | cons b bytes ih =>
    rw [List.length_cons] at hm hc
    have hlt : s.rxcnt < s.rxbuf.length := by omega
    have hstep := step_receives hm.moves hp (hb ▸ hlt) hq
    have hread := ih (s := receive b (bytes ++ rest) { s with turns := s.turns.tail }) (hm.tail rfl) hp
      (by simp only [receive]; omega) ((List.length_set ..).trans hb) rfl
    refine (run_succ_of_step (M := Sys2Proof.core) _ hstep).trans (hread.trans ?_)
    simp only [receive, set_take_append_drop b bytes hlt, List.drop_tail, List.length_cons, Nat.add_assoc,
      Nat.add_comm 1]

/-- Settles O49: from RXCNT 0 the 26 bytes read are the whole of RXBUF. -/
theorem twentySixStepsReadTheReply : Obligations.TwentySixStepsReadTheReply := by
  intro s reply rest hm hp hc hb hl hq
  have hrun := run_reads reply (hl.symm ▸ hm) hp (by simp [hc, hl, frameLen]) hb hq
  simpa [hl, hc, ← hb] using hrun

end Sys2Proof.Machine
end

section
/-! PROOFS of the statements on the encoding (30_encoding.md). First what a field of a payload reads after it was
written, what selects a row (O3, O4, O17), and one round trip for each shape of operand (O2, and O1 by evaluation). Then
what an operation sends, by the same shapes (O5), the enumerations' strings (O26 to O28), and the completion of a
single-field query (O47). -/

namespace Sys2Proof.Machine

/-! ### Fields of a payload -/

/-- A field of `n` bytes carries every integer below `256 ^ n` (R82). -/
theorem decInt_leBytes {n v : Nat} (h : v < 256 ^ n) : decInt (leBytes n v) = v := by
  induction n generalizing v with
  | zero => simp only [pow_zero, Nat.lt_one_iff] at h; simp [leBytes, decInt, h]
  | succ n ih =>
    have hq : v / 256 < 256 ^ n := Nat.div_lt_of_lt_mul (by rwa [pow_succ'] at h)
    simp only [leBytes, decInt, ih hq, BitVec.toNat_ofNat]
    omega

theorem memRead_append {buf : List Byte} {off n : Nat} (rest : List Byte) (h : off + n ≤ buf.length) :
    memRead (buf ++ rest) off n = memRead buf off n := by
  have hn : n ≤ (buf.drop off).length := by rw [List.length_drop]; omega
  rw [memRead, memRead, List.drop_append_of_le_length (by omega), List.take_append_of_le_length hn]

theorem memRead_leBytes_append {n v : Nat} (rest : List Byte) (h : v < 256 ^ n) :
    memRead (leBytes n v ++ rest) 0 n = v := by
  simp [memRead, decInt_leBytes h]

theorem memRead_memWrite_same {buf : List Byte} {off n v : Nat} (hl : off + n ≤ buf.length) (hv : v < 256 ^ n) :
    memRead (memWrite buf off n v) off n = v := by
  have hoff : (buf.take off).length = off := by rw [List.length_take]; omega
  have hdrop : (memWrite buf off n v).drop off = leBytes n v ++ buf.drop (off + n) := by
    rw [memWrite, List.append_assoc, List.drop_left' hoff]
  rw [memRead, hdrop, List.take_left' (leBytes_length n v), decInt_leBytes hv]

/-- A write moves no byte outside its own field (R9). -/
theorem getElem?_memWrite_outside {buf : List Byte} {off n k : Nat} (v : Nat) (hl : off + n ≤ buf.length)
    (hk : k < off ∨ off + n ≤ k) : (memWrite buf off n v)[k]? = buf[k]? := by
  have hoff : (buf.take off).length = off := by rw [List.length_take]; omega
  have hhead : (buf.take off ++ leBytes n v).length = off + n := by rw [List.length_append, hoff, leBytes_length]
  obtain hk | hk := hk
  · rw [memWrite, List.append_assoc, List.getElem?_append_left (by omega), List.getElem?_take_of_lt hk]
  · rw [memWrite, List.getElem?_append_right (by omega), hhead, List.getElem?_drop, Nat.add_sub_cancel' hk]

theorem memRead_memWrite_apart {buf : List Byte} {i m j n : Nat} (v : Nat) (h : fieldsApart i m j n)
    (hl : j + n ≤ buf.length) : memRead (memWrite buf j n v) i m = memRead buf i m := by
  rw [memRead, memRead]
  congr 1
  refine List.ext_getElem? fun k => ?_
  simp only [List.getElem?_take, List.getElem?_drop]
  split_ifs with hk
  · exact getElem?_memWrite_outside v hl (by unfold fieldsApart at h; omega)
  · rfl

theorem fieldsApart_comm {i m j n : Nat} : fieldsApart i m j n ↔ fieldsApart j n i m := or_comm

/-- An integer of `width` bytes at an offset of a payload. -/
structure Field where
  off : Nat
  width : Nat
  value : Nat

/-- Fields written one after another, as TPENC writes them (R233). -/
def writeFields (buf : List Byte) (fs : List Field) : List Byte :=
  fs.foldl (fun buf f => memWrite buf f.off f.width f.value) buf

theorem memRead_writeFields_apart {fs : List Field} {buf : List Byte} {off n : Nat}
    (hin : ∀ f ∈ fs, f.off + f.width ≤ buf.length) (hap : ∀ f ∈ fs, fieldsApart off n f.off f.width) :
    memRead (writeFields buf fs) off n = memRead buf off n := by
  induction fs generalizing buf with
  | nil => rfl
  | cons g fs ih =>
    obtain ⟨hg, hin⟩ := List.forall_mem_cons.mp hin
    obtain ⟨hag, hap⟩ := List.forall_mem_cons.mp hap
    exact (ih (memWrite_length g.value hg ▸ hin) hap).trans (memRead_memWrite_apart g.value hag hg)

/-- Of fields that do not overlap each is read as it was written (R233, R234). -/
theorem memRead_writeFields {fs : List Field} {buf : List Byte} (hin : ∀ f ∈ fs, f.off + f.width ≤ buf.length)
    (hval : ∀ f ∈ fs, f.value < 256 ^ f.width)
    (hap : fs.Pairwise fun f g => fieldsApart f.off f.width g.off g.width) :
    ∀ f ∈ fs, memRead (writeFields buf fs) f.off f.width = f.value := by
  induction fs generalizing buf with
  | nil => nofun
  | cons g fs ih =>
    obtain ⟨hg, hin⟩ := List.forall_mem_cons.mp hin
    obtain ⟨hvg, hval⟩ := List.forall_mem_cons.mp hval
    obtain ⟨hag, hap⟩ := List.pairwise_cons.mp hap
    have hin' := memWrite_length g.value hg ▸ hin
    refine List.forall_mem_cons.mpr ⟨?_, ih hin' hval hap⟩
    exact (memRead_writeFields_apart hin' hag).trans (memRead_memWrite_same hg hvg)

/-- The five fields of a transient profile in the order TPENC writes them (R233). -/
def profileFields (l : TPLayout) (a ta b tb style : Nat) : List Field :=
  [⟨l.a, 4, a⟩, ⟨l.ta, 2, ta⟩, ⟨l.b, 4, b⟩, ⟨l.tb, 2, tb⟩, ⟨l.style, 1, style⟩]

theorem tpPack_eq_writeFields (l : TPLayout) (a ta b tb style : Nat) :
    tpPack l a ta b tb style = writeFields (List.replicate (tpDataLen l) 0) (profileFields l a ta b tb style) := rfl

/-- A legal layout keeps the fields of a profile apart, so each is read as it was packed, whatever bytes follow. -/
theorem memRead_tpPack {c : Config} (hc : c.Ok) {a ta b tb style : Nat} (rest : List Byte) (ha : a < 256 ^ 4)
    (hta : ta < 256 ^ 2) (hb : b < 256 ^ 4) (htb : tb < 256 ^ 2) (hst : style < 256 ^ 1) :
    ∀ f ∈ profileFields c.tp a ta b tb style,
      memRead (tpPack c.tp a ta b tb style ++ rest) f.off f.width = f.value := by
  have hin : ∀ f ∈ profileFields c.tp a ta b tb style, f.off + f.width ≤ tpDataLen c.tp := by
    simp [profileFields, tpDataLen]
  have hval : ∀ f ∈ profileFields c.tp a ta b tb style, f.value < 256 ^ f.width := by
    simpa [profileFields] using ⟨ha, hta, hb, htb, hst⟩
  have hap : (profileFields c.tp a ta b tb style).Pairwise fun f g => fieldsApart f.off f.width g.off g.width := by
    simpa [profileFields, and_assoc] using hc.tpApart
  intro f hf
  rw [memRead_append rest ((hin f hf).trans_eq (tpPack_length ..).symm), tpPack_eq_writeFields]
  exact memRead_writeFields (by simpa using hin) hval hap f hf

/-! ### What selects a row -/

/-- The payload of a frame is its data, filled with zeros (R57). -/
theorem payloadOf_frameBytes (opc addr : Byte) {p : List Byte} (h : p.length ≤ payloadCap) :
    payloadOf (frameBytes opc addr p) = p ++ List.replicate (payloadCap - p.length) 0 := by
  rw [payloadOf, frameBytes_cons]
  exact List.take_left' (by rw [List.length_append, List.length_replicate]; omega)

/-- OPC is injective, so the opcode of an operation selects that operation (R87). -/
theorem opOfOpcode_opcOf {c : Config} (hc : c.Ok) (op : OpName) : opOfOpcode c (opcOf c op) = some op := by
  have hmem := opcOf_mem hc op
  have hsome : (c.opc.find? fun p => p.2 == opcOf c op).isSome := List.find?_isSome.mpr ⟨_, hmem, by simp⟩
  obtain ⟨p, hp⟩ := Option.isSome_iff_exists.mp hsome
  have heq : p = (op, opcOf c op) :=
    List.inj_on_of_nodup_map hc.opcInjective (List.mem_of_find?_eq_some hp) hmem (by simpa using List.find?_some hp)
  simp [opOfOpcode, hp, heq]

/-- Bytes 0 and 2 select the row, and the payload gives the operands (R80, R93). -/
theorem decode_selects {c : Config} {f : List Byte} {op : OpName} (hl : f.length = frameLen) (hh : f.getD 0 0 = header)
    (hm : f.getD 2 0 ≠ statusMark) (ho : opOfOpcode c (f.getD 2 0) = some op) :
    decode c f = operandsOf c op (payloadOf f) := by
  simp only [decode, hl, hh, if_neg hm, ho, ne_eq, not_true, if_false]

theorem decode_noOperation {c : Config} {f : List Byte} (hl : f.length = frameLen) (hh : f.getD 0 0 = header)
    (hm : f.getD 2 0 ≠ statusMark) (ho : opOfOpcode c (f.getD 2 0) = none) :
    decode c f = .error (.noOperation (f.getD 2 0)) := by
  simp only [decode, hl, hh, if_neg hm, ho, ne_eq, not_true, if_false]

/-- A status frame carries its device's address and its status as operands (R13, R88). -/
theorem decode_statusFrame (c : Config) (device status : Byte) :
    decode c (frameBytes statusMark device [status]) = .ok (.statusReply device status) := by
  have hl : (frameBytes statusMark device [status]).length = frameLen := frameBytes_length _ _ (by simp [payloadCap])
  have hs : (frameBytes statusMark device [status]).getD 3 0 = status := by simp [frameBytes]
  simp only [decode, hl, frameBytes_header, frameBytes_opcode, frameBytes_address, hs, ne_eq, not_true, if_false,
    if_true]

/-- The decoder reads a request frame's operands from its data bytes and zeros behind them (R57, R81). -/
theorem decode_request {c : Config} (hc : c.Ok) (op : OpName) (addr : Byte) {data : List Byte}
    (hd : data.length ≤ payloadCap) :
    decode c (frameBytes (opcOf c op) addr data) =
      operandsOf c op (data ++ List.replicate (payloadCap - data.length) 0) := by
  rw [← payloadOf_frameBytes (opcOf c op) addr hd]
  refine decode_selects (frameBytes_length _ _ hd) (frameBytes_header ..) ?_ ?_
  · rw [frameBytes_opcode]; exact opcOf_ne_statusMark hc op
  · rw [frameBytes_opcode]; exact opOfOpcode_opcOf hc op

/-- Settles O3: of a frame that is no status frame the decoder reads byte 0, byte 2 and the payload slice alone. -/
theorem addressAndChecksumSelectNothing : Obligations.AddressAndChecksumSelectNothing := by
  intro c f a k hl hm
  have h0 : ((f.set 1 a).set 25 k).getD 0 0 = f.getD 0 0 := by simp [List.getD]
  have h2 : ((f.set 1 a).set 25 k).getD 2 0 = f.getD 2 0 := by simp [List.getD]
  have hp : payloadOf ((f.set 1 a).set 25 k) = payloadOf f := by
    simp [payloadOf, payloadOff, payloadCap, List.drop_set, List.take_set_of_le]
  simp only [decode, List.length_set, h0, h2, hp, if_neg hm]

/-- Settles O4: no pair of OPC has the byte, so the search for an operation finds none. -/
theorem unassignedOpcodesAreRejected : Obligations.UnassignedOpcodesAreRejected := by
  intro c f hl hh hm hno
  refine decode_noOperation hl hh hm ?_
  simpa [opOfOpcode] using fun op b hb => hno (op, b) hb

/-- Settles O17: the constraints of R87 and R89 on OPC, at the opcode the table gives each operation. -/
theorem opcodesAreDistinctAndRecognised : Obligations.OpcodesAreDistinctAndRecognised := by
  intro c hc
  simp only [lookup_opcode]
  refine ⟨fun op op' h => ?_, fun op => ?_⟩
  · have hsel := opOfOpcode_opcOf hc op
    rw [h, opOfOpcode_opcOf hc op'] at hsel
    exact (Option.some.inj hsel).symm
  · obtain ⟨hmin, hmax⟩ := hc.opcRange _ (opcOf_mem hc op)
    exact ⟨hmin, hmax, opcOf_recognised hc op, opcOf_ne_statusMark hc op⟩

/-! ### Decode of encode, by the shape of the operands -/

/-- A frame carries the instruction: the encoder writes it and the decoder reads the instruction from it. -/
def Carried (c : Config) (addr : Byte) (i : Instr) : Prop :=
  ∃ f, encode c addr i = some f ∧ f.length = frameLen ∧ decode c f = .ok i

/-- An exact quantity is a wire integer that fits its field (R82, R146). -/
theorem exactQuantity_wire {x : Rat} {s n : Nat} (h : exactQuantity x s n = true) :
    ∃ w : Nat, w < 256 ^ n ∧ x * (s : Rat) = (w : Int) := by
  simp only [exactQuantity, Bool.and_eq_true, beq_iff_eq, decide_eq_true_eq] at h
  obtain ⟨⟨hden, hnum⟩, hlt⟩ := h
  obtain ⟨w, hw⟩ := Int.eq_ofNat_of_zero_le hnum
  exact ⟨w, by exact_mod_cast hw ▸ hlt, hw ▸ (Rat.den_eq_one_iff _).mp hden |>.symm⟩

/-- `SCALE` of an exact quantity is its wire integer, whatever OVERFLOW and the tie rule are (R146, R147). -/
theorem scaleValue_exact (o : Overflow) {x : Rat} {s n w : Nat} (hs : 0 < s) (hw : w < 256 ^ n)
    (hx : x * (s : Rat) = (w : Int)) : scaleValue o x s n = .ok w := by
  have h0 : 0 ≤ x := nonneg_of_mul_nonneg_left (by rw [hx]; positivity) (by exact_mod_cast hs : (0 : Rat) < s)
  have hround : roundRat (x * s) = w := by rw [hx, roundRat_int]
  rw [scaleValue_fits h0 (by rw [hround]; exact_mod_cast hw), hround, Int.toNat_natCast]

theorem unscale_eq_div (w s : Nat) : unscale w s = (w : Rat) / (s : Rat) := by
  rw [unscale, Rat.mkRat_eq_div, Int.cast_natCast]

theorem unscale_exact {x : Rat} {s w : Nat} (hs : 0 < s) (hx : x * (s : Rat) = (w : Int)) : unscale w s = x := by
  rw [unscale_eq_div, div_eq_iff (by exact_mod_cast hs.ne'), hx, Int.cast_natCast]

theorem setPointScale_pos {c : Config} (hc : c.Ok) (m : Mode) : 0 < setPointScale c m := by
  cases m with
  | cc | cv | cw => exact Nat.succ_pos _
  | cr => exact hc.scaleRPos

section
variable {c : Config} (hc : c.Ok) {addr : Byte} {op : OpName}
include hc

/-- A row carries an instruction whose data bytes give its operands back, whatever bytes follow them. -/
theorem carried_of_data {i : Instr} {d : Option (List Byte)} {data : List Byte}
    (he : encode c addr i = requestFrame c op addr d) (hd : d = some data) (hl : data.length ≤ payloadCap)
    (ho : ∀ rest, operandsOf c op (data ++ rest) = .ok i) : Carried c addr i :=
  ⟨frameBytes (opcOf c op) addr data, by rw [he, hd, requestFrame, Option.map_some], frameBytes_length _ _ hl,
    (decode_request hc op addr hl).trans (ho _)⟩

theorem carried_empty {i : Instr} (he : encode c addr i = requestFrame c op addr (some []))
    (ho : ∀ p, operandsOf c op p = .ok i) : Carried c addr i :=
  carried_of_data hc he rfl (Nat.zero_le _) ho

theorem carried_flag {k : Bool → Instr} {b : Bool}
    (he : encode c addr (k b) = requestFrame c op addr (some [flagByte b]))
    (ho : ∀ p, operandsOf c op p = flagField p k) : Carried c addr (k b) :=
  carried_of_data hc he rfl (by simp [payloadCap]) fun rest => by simp [ho, flagField]

theorem carried_quantity {k : Rat → Instr} {x : Rat} {s n : Nat} (hs : 0 < s) (hn : n ≤ payloadCap)
    (hx : exactQuantity x s n = true) (he : encode c addr (k x) = requestFrame c op addr (quantityData c x s n))
    (ho : ∀ p, operandsOf c op p = .ok (k (quantityField p s n))) : Carried c addr (k x) := by
  obtain ⟨w, hw, hxw⟩ := exactQuantity_wire hx
  refine carried_of_data hc (data := leBytes n w) he ?_ ((leBytes_length n w).trans_le hn) fun rest => ?_
  · rw [quantityData, scaleValue_exact c.overflow hs hw hxw]
  · rw [ho, quantityField, memRead_leBytes_append rest hw, unscale_exact hs hxw]

theorem carried_index {k : Int → Instr} {r : Int} (hr : (decide (regMin ≤ r) && decide (r ≤ regMax)) = true)
    (he : encode c addr (k r) = requestFrame c op addr (indexData r))
    (ho : ∀ p, operandsOf c op p = .ok (k (indexField p))) : Carried c addr (k r) := by
  simp only [Bool.and_eq_true, decide_eq_true_eq] at hr
  have hrange : 1 ≤ r ∧ r ≤ 25 := hr
  refine carried_of_data hc (data := leBytes 1 r.toNat) he ?_ (by simp [payloadCap]) fun rest => ?_
  · exact if_neg (not_or.mpr ⟨not_lt.mpr hr.1, not_lt.mpr hr.2⟩)
  · rw [ho, indexField, memRead_leBytes_append rest (by omega), Int.toNat_of_nonneg (by omega)]

/-- A canonical string is carried by its member's code, which the decoder turns back into that string (R85, R86 (a)). -/
theorem carried_enum {α : Type} {e : EnumKind} {k : Text → Instr} {members : List α} {text : α → Text}
    {parse : Text → Option α} {code : α → Byte} {t : Text} (ht : (members.map text).contains t = true)
    (hparse : ∀ m, parse (text m) = some m) (hcode : ∀ m, enumTextOfCode e (code m) = some (text m))
    (he : encode c addr (k t) = requestFrame c op addr ((parse t).map fun m => [code m]))
    (ho : ∀ p, operandsOf c op p = enumField p e k) : Carried c addr (k t) := by
  obtain ⟨m, -, rfl⟩ := List.mem_map.mp (List.contains_iff_mem.mp ht)
  refine carried_of_data hc (data := [code m]) he (by simp [hparse]) (by simp [payloadCap]) fun rest => ?_
  simp [ho, enumField, hcode]

theorem transientFields_tpPack {m : Mode} {st : Style} {a ta b tb : Rat} {wa wta wb wtb : Nat}
    (k : Text → Rat → Rat → Rat → Rat → Text → Instr) (rest : List Byte)
    (ha : wa < 256 ^ 4) (hta : wta < 256 ^ 2) (hb : wb < 256 ^ 4) (htb : wtb < 256 ^ 2)
    (hxa : unscale wa (setPointScale c m) = a) (hxta : unscale wta scaleT = ta)
    (hxb : unscale wb (setPointScale c m) = b) (hxtb : unscale wtb scaleT = tb) :
    transientFields c m (tpPack c.tp wa wta wb wtb (styleCode st).toNat ++ rest) k =
      .ok (k (modeText m) a ta b tb (styleText st)) := by
  have hread := memRead_tpPack hc rest ha hta hb htb (styleCode st).isLt
  simp only [profileFields, List.forall_mem_cons] at hread
  obtain ⟨ra, rta, rb, rtb, rst, -⟩ := hread
  simp only [transientFields, ra, rta, rb, rtb, rst, hxa, hxta, hxb, hxtb, BitVec.ofNat_toNat, BitVec.setWidth_eq,
    styleTextOfCode_code]

/-- A profile is carried by five wire integers, which the decoder reads back under every layout (R233, R235). -/
theorem carried_setTransient {m : Mode} {k : Text → Rat → Rat → Rat → Rat → Text → Instr} {t st : Text}
    {a ta b tb : Rat} (hx : exactTransient c m t a ta b tb st = true)
    (he : encode c addr (k t a ta b tb st) = setTransientFrame c addr t a ta b tb st)
    (ho : ∀ p, operandsOf c (.setTransient m) p = transientFields c m p k) : Carried c addr (k t a ta b tb st) := by
  simp only [exactTransient, Bool.and_eq_true, beq_iff_eq] at hx
  obtain ⟨⟨⟨⟨⟨rfl, ha⟩, hta⟩, hb⟩, htb⟩, hst⟩ := hx
  obtain ⟨style, -, rfl⟩ := List.mem_map.mp (List.contains_iff_mem.mp hst)
  obtain ⟨wa, hwa, hxa⟩ := exactQuantity_wire ha
  obtain ⟨wta, hwta, hxta⟩ := exactQuantity_wire hta
  obtain ⟨wb, hwb, hxb⟩ := exactQuantity_wire hb
  obtain ⟨wtb, hwtb, hxtb⟩ := exactQuantity_wire htb
  have hs := setPointScale_pos hc m
  have hT : 0 < scaleT := by decide
  refine carried_of_data hc (op := .setTransient m) (d := transientData c m a ta b tb (styleText style))
    (data := tpPack c.tp wa wta wb wtb (styleCode style).toNat) ?_ ?_ ?_ fun rest => ?_
  · rw [he, setTransientFrame, parseMode_text]
  · simp only [transientData, scaleValue_exact c.overflow hs hwa hxa, scaleValue_exact c.overflow hT hwta hxta,
      scaleValue_exact c.overflow hs hwb hxb, scaleValue_exact c.overflow hT hwtb hxtb, parseStyle_text]
  · exact (tpPack_length ..).trans_le hc.tpInside
  · rw [ho]
    exact transientFields_tpPack hc k rest hwa hwta hwb hwtb (unscale_exact hs hxa) (unscale_exact hT hxta)
      (unscale_exact hs hxb) (unscale_exact hT hxtb)

theorem carried_getTransient {m : Mode} {k : Text → Instr} {t : Text} (ht : (t == modeText m) = true)
    (he : encode c addr (k t) = getTransientFrame c addr t)
    (ho : ∀ p, operandsOf c (.getTransient m) p = .ok (k (modeText m))) : Carried c addr (k t) := by
  obtain rfl := beq_iff_eq.mp ht
  refine carried_empty hc (op := .getTransient m) ?_ ho
  rw [he, getTransientFrame, parseMode_text]

end

theorem carried_statusReply (c : Config) (addr device status : Byte) : Carried c addr (.statusReply device status) :=
  ⟨_, rfl, frameBytes_length _ _ (by simp [payloadCap]), decode_statusFrame c device status⟩

/-- Settles O2: each row is carried by the shape of its operands. -/
theorem decodeOfEncodeIsTheInstruction : Obligations.DecodeOfEncodeIsTheInstruction := by
  intro c addr i hc h
  exact match i, h with
  | .setRemoteControl _, _ | .setLoadState _, _ | .setLoadOnTimerState _, _ => carried_flag hc rfl fun _ => rfl
  | .setMaxVoltage _, h | .setMaxCurrent _, h | .setMaxPower _, h | .setCCCurrent _, h | .setCVVoltage _, h
  | .setCWPower _, h | .setBatteryTestVoltage _, h | .setLoadOnTimer _, h =>
    carried_quantity hc (by decide) (by decide) h rfl fun _ => rfl
  | .setCRResistance _, h => carried_quantity hc hc.scaleRPos (by decide) h rfl fun _ => rfl
  | .setMode _, h => carried_enum hc h (parseMode_text _) enumTextOfCode_mode rfl fun _ => rfl
  | .setTriggerSource _, h => carried_enum hc h (parseTrigger_text _) enumTextOfCode_trigger rfl fun _ => rfl
  | .setFunction _, h => carried_enum hc h (parseFunction_text _) enumTextOfCode_function rfl fun _ => rfl
  | .saveSettings _, h | .recallSettings _, h => carried_index hc h rfl fun _ => rfl
  | .setTransientCc _ _ _ _ _ _, h | .setTransientCv _ _ _ _ _ _, h | .setTransientCw _ _ _ _ _ _, h
  | .setTransientCr _ _ _ _ _ _, h => carried_setTransient hc h rfl fun _ => rfl
  | .getTransientCc _, h | .getTransientCv _, h | .getTransientCw _, h | .getTransientCr _, h =>
    carried_getTransient hc h rfl fun _ => rfl
  | .getMaxVoltage, _ | .getMaxCurrent, _ | .getMaxPower, _ | .getMode, _ | .getCCCurrent, _ | .getCVVoltage, _
  | .getCWPower, _ | .getCRResistance, _ | .getBatteryTestVoltage, _ | .getLoadOnTimer, _ | .getLoadOnTimerState, _
  | .getTriggerSource, _ | .triggerLoad, _ | .getFunction, _ | .getInputValues, _ | .getProductInformation, _ =>
    carried_empty hc rfl fun _ => rfl
  | .statusReply device status, _ => carried_statusReply c addr device status

/-- Settles O1: evaluation on ten closed frames; the eighth compares fractions, which `decide` does by their normal
forms. -/
theorem frameWordsDecodeToTheirOperations : Obligations.FrameWordsDecodeToTheirOperations :=
  ⟨rfl, rfl, rfl, rfl, rfl, rfl, rfl, by decide +kernel, rfl, rfl⟩

/-! ### What the operation sends -/

/-- The outcome sends the frame if there is one, and otherwise ends in IDLE with neither stream touched (R82, R151). -/
def SendsFrameOrNothing (s : State) (o : Out) (frame : Option (List Byte)) : Prop :=
  (∀ f, frame = some f → ∃ t, o = .next t ∧ t.phase = .rx ∧ t.txbuf = f ∧ t.txstream = s.txstream ++ f) ∧
    (frame = none → ∃ t, o = .next t ∧ t.phase = .idle ∧ t.txstream = s.txstream ∧ t.rxstream = s.rxstream)

section
variable {s u : State} (h : SameLink s u)
include h

theorem raise_sendsNothing (e : Err) : SendsFrameOrNothing s (.next (raise e u)) none :=
  ⟨nofun, fun _ => ⟨_, rfl, rfl, h.txstream, h.rxstream⟩⟩

theorem issue_sendsFrame (hs : s.Sound) (op : OpName) {data : List Byte} (hd : data.length ≤ payloadCap) :
    SendsFrameOrNothing s (issue op data u) (requestFrame s.cfg op s.addr (some data)) := by
  have hframe : u.requestOf op data = frameBytes (opcOf s.cfg op) s.addr data := by
    rw [State.requestOf, lookup_opcode, h.cfg, h.addr]
  refine ⟨fun f hf => ⟨_, issue_sound (h.sound hs) op hd, rfl, ?_⟩, nofun⟩
  obtain rfl : u.requestOf op data = f := hframe.trans (Option.some.inj hf)
  exact ⟨rfl, congrArg (· ++ u.requestOf op data) h.txstream⟩

/-- The scaler goes on where the encoder has a wire integer, and ends the operation where it has none (R146). -/
theorem withScale_sends {x : Rat} {sc n : Nat} {k : Nat → State → Out} {frame : Nat → Option (List Byte)}
    (hk : ∀ w v, w < 256 ^ n → SameLink s v → SendsFrameOrNothing s (k w v) (frame w)) :
    SendsFrameOrNothing s (withScale x sc n u k) ((scaleValue s.cfg.overflow x sc n).toOption.bind frame) := by
  rw [← h.cfg]
  obtain ⟨w, hw, hok, ho⟩ | ⟨herr, ho⟩ := withScale_cases x sc n u k
  · rw [hok, ho]
    exact hk w _ hw h.registers
  · rw [herr, ho]
    exact raise_sendsNothing h _

end

theorem requestFrame_quantity (c : Config) (op : OpName) (addr : Byte) (x : Rat) (sc n : Nat) :
    requestFrame c op addr (quantityData c x sc n) =
      (scaleValue c.overflow x sc n).toOption.bind fun w => requestFrame c op addr (some (leBytes n w)) := by
  unfold quantityData
  cases scaleValue c.overflow x sc n <;> rfl

/-- The encoder's profile, one operand after the other as the operation takes them (R235). -/
theorem requestFrame_transient (c : Config) (m : Mode) (addr : Byte) (a ta b tb : Rat) (style : Text) :
    requestFrame c (.setTransient m) addr (transientData c m a ta b tb style) =
      (scaleValue c.overflow a (setPointScale c m) 4).toOption.bind fun wa =>
      (scaleValue c.overflow ta scaleT 2).toOption.bind fun wta =>
      (scaleValue c.overflow b (setPointScale c m) 4).toOption.bind fun wb =>
      (scaleValue c.overflow tb scaleT 2).toOption.bind fun wtb =>
      (parseStyle c.caseFold style).bind fun st =>
        requestFrame c (.setTransient m) addr (some (tpPack c.tp wa wta wb wtb (styleCode st).toNat)) := by
  unfold transientData
  cases scaleValue c.overflow a (setPointScale c m) 4 with
  | error e => rfl
  | ok wa =>
    cases scaleValue c.overflow ta scaleT 2 with
    | error e => rfl
    | ok wta =>
      cases scaleValue c.overflow b (setPointScale c m) 4 with
      | error e => rfl
      | ok wb =>
        cases scaleValue c.overflow tb scaleT 2 with
        | error e => rfl
        | ok wtb => cases parseStyle c.caseFold style <;> rfl

/-- The five registers hold the wire integers of a profile whole, so TPENC packs those integers (R29, R233). -/
theorem tpEncode_staged {u : State} {c : Config} (hu : u.cfg = c) (mode : BitVec 2) (style : Byte)
    {wa wta wb wtb : Nat} (ha : wa < 256 ^ 4) (hta : wta < 256 ^ 2) (hb : wb < 256 ^ 4) (htb : wtb < 256 ^ 2) :
    tpEncode { u with
      tpMode := mode, tpA := BitVec.ofNat 32 wa, tpTA := BitVec.ofNat 16 wta, tpB := BitVec.ofNat 32 wb
      tpTB := BitVec.ofNat 16 wtb, tpStyle := style } = tpPack c.tp wa wta wb wtb style.toNat := by
  simp only [tpEncode, hu, BitVec.toNat_ofNat]
  congr 1 <;> exact Nat.mod_eq_of_lt ‹_›

section
variable {s : State} (hr : s.Ready) (hs : s.Sound)
include hr hs

theorem setQuantity_sends (op : OpName) (x : Rat) (sc : Nat) {n : Nat} (hn : n ≤ payloadCap) :
    SendsFrameOrNothing s (setQuantity op x sc n s) (requestFrame s.cfg op s.addr (quantityData s.cfg x sc n)) := by
  rw [setQuantity, gate_ready hr, requestFrame_quantity]
  exact withScale_sends (.refl s) fun w v _ h => issue_sendsFrame h hs op ((leBytes_length n w).trans_le hn)

theorem setFlag_sends (op : OpName) (b : Bool) :
    SendsFrameOrNothing s (setFlag op b s) (requestFrame s.cfg op s.addr (some [flagByte b])) := by
  rw [setFlag, gate_ready hr]
  exact issue_sendsFrame (.refl s) hs op (by simp [payloadCap])

theorem issueEmpty_sends (op : OpName) :
    SendsFrameOrNothing s (issueEmpty op s) (requestFrame s.cfg op s.addr (some [])) := by
  rw [issueEmpty, gate_ready hr]
  exact issue_sendsFrame (.refl s) hs op (Nat.zero_le _)

theorem setEnum_sends {α : Type} (op : OpName) (member : Option α) (code : α → Byte) (e : Err) :
    SendsFrameOrNothing s (setEnum op (member.map code) e s)
      (requestFrame s.cfg op s.addr (member.map fun m => [code m])) := by
  rw [setEnum, gate_ready hr]
  cases member with
  | none => exact raise_sendsNothing (.refl s) e
  | some m => exact issue_sendsFrame (.refl s) hs op (by simp [payloadCap])

theorem setIndex_sends (op : OpName) (r : Int) :
    SendsFrameOrNothing s (setIndex op r s) (requestFrame s.cfg op s.addr (indexData r)) := by
  rw [setIndex, gate_ready hr, indexData]
  split_ifs
  · exact raise_sendsNothing (.refl s) _
  · exact issue_sendsFrame (.refl s) hs op (by simp [payloadCap])

theorem setTransient_sends (t : Text) (a ta b tb : Rat) (style : Text) :
    SendsFrameOrNothing s (setTransient t a ta b tb style s) (setTransientFrame s.cfg s.addr t a ta b tb style) := by
  rw [setTransient, gate_ready hr, setTransientFrame]
  cases parseMode s.cfg.caseFold t with
  | none => exact raise_sendsNothing (.refl s) _
  | some m =>
    simp only [requestFrame_transient]
    refine withScale_sends (.refl s) fun wa u ha h => withScale_sends h fun wta u hta h => ?_
    rw [h.cfg]
    refine withScale_sends h fun wb u hb h => withScale_sends h fun wtb u htb h => ?_
    rw [show parseStyle u.cfg.caseFold style = parseStyle s.cfg.caseFold style by rw [h.cfg]]
    cases parseStyle s.cfg.caseFold style with
    | none => exact raise_sendsNothing h _
    | some st =>
      dsimp only [Option.bind_some]
      rw [tpEncode_staged h.cfg _ _ ha hta hb htb]
      exact issue_sendsFrame h.registers hs _ ((tpPack_length ..).trans_le hs.1.tpInside)

theorem getTransient_sends (t : Text) :
    SendsFrameOrNothing s (getTransient t s) (getTransientFrame s.cfg s.addr t) := by
  rw [getTransient, gate_ready hr, getTransientFrame]
  cases parseMode s.cfg.caseFold t with
  | none => exact raise_sendsNothing (.refl s) _
  | some m => exact issue_sendsFrame (SameLink.refl s).registers hs _ (Nat.zero_le _)

/-- The operation and the encoder's row are of one shape, for each of the 41 request rows. -/
theorem exec_sends {i : Instr} (hi : isRequest i = true) :
    SendsFrameOrNothing s (exec i s) (encode s.cfg s.addr i) :=
  match i, hi with
  | .setRemoteControl _, _ | .setLoadState _, _ | .setLoadOnTimerState _, _ => setFlag_sends hr hs _ _
  | .setMaxVoltage _, _ | .setMaxCurrent _, _ | .setMaxPower _, _ | .setCCCurrent _, _ | .setCVVoltage _, _
  | .setCWPower _, _ | .setCRResistance _, _ | .setBatteryTestVoltage _, _ | .setLoadOnTimer _, _ =>
    setQuantity_sends hr hs _ _ _ (by decide)
  | .setMode _, _ => setEnum_sends hr hs _ _ modeCode _
  | .setTriggerSource _, _ => setEnum_sends hr hs _ _ triggerCode _
  | .setFunction _, _ => setEnum_sends hr hs _ _ functionCode _
  | .saveSettings _, _ | .recallSettings _, _ => setIndex_sends hr hs _ _
  | .getMaxVoltage, _ | .getMaxCurrent, _ | .getMaxPower, _ | .getMode, _ | .getCCCurrent, _ | .getCVVoltage, _
  | .getCWPower, _ | .getCRResistance, _ | .getBatteryTestVoltage, _ | .getLoadOnTimer, _ | .getLoadOnTimerState, _
  | .getTriggerSource, _ | .triggerLoad, _ | .getFunction, _ | .getInputValues, _ | .getProductInformation, _ =>
    issueEmpty_sends hr hs _
  | .setTransientCc _ _ _ _ _ _, _ | .setTransientCv _ _ _ _ _ _, _ | .setTransientCw _ _ _ _ _ _, _
  | .setTransientCr _ _ _ _ _ _, _ => setTransient_sends hr hs _ _ _ _ _ _
  | .getTransientCc _, _ | .getTransientCv _, _ | .getTransientCw _, _ | .getTransientCr _, _ =>
    getTransient_sends hr hs _

end

/-- Settles O5: the two clauses are those of `SendsFrameOrNothing`. -/
theorem encodeIsWhatTheOperationSends : Obligations.EncodeIsWhatTheOperationSends :=
  fun _ _ hi hs hr => exec_sends hr hs hi

/-! ### The strings of the enumerations -/

/-- How the strings of an enumeration are spelt (R85): in lower case, each member its own; and the list holds every
member. -/
structure Canonical {α : Type} (text : α → Text) (members : List α) : Prop where
  lower : ∀ m, lowerText (text m) = text m
  injective : Function.Injective text
  complete : ∀ m, m ∈ members

theorem modeText_canonical : Canonical modeText modes where
  lower m := by cases m <;> rfl
  injective _ _ h := by simpa using congrArg (parseMode false) h
  complete m := by cases m <;> decide

theorem triggerText_canonical : Canonical triggerText triggers where
  lower m := by cases m <;> rfl
  injective _ _ h := by simpa using congrArg (parseTrigger false) h
  complete m := by cases m <;> decide

theorem functionText_canonical : Canonical functionText functions where
  lower m := by cases m <;> rfl
  injective _ _ h := by simpa using congrArg (parseFunction false) h
  complete m := by cases m <;> decide

theorem styleText_canonical : Canonical styleText styles where
  lower m := by cases m <;> rfl
  injective _ _ h := by simpa using congrArg (parseStyle false) h
  complete m := by cases m <;> decide

section
variable {α : Type} {text : α → Text} {members : List α} (hc : Canonical text members) {t : Text}
include hc

/-- A text that no member is spelt as goes by its letters alone, and only under CASEFOLD (R86 (b), (c)). -/
theorem parseText_inexact (caseFold : Bool) (ht : ∀ m, text m ≠ t) :
    parseText caseFold text members t =
      if caseFold then members.find? (fun m => text m == lowerText t) else none := by
  have hnone : members.find? (fun m => text m == t) = none :=
    List.find?_eq_none.mpr fun m _ => by simpa using ht m
  simp only [parseText, hnone, hc.lower]

theorem parseText_unrecognised (caseFold : Bool) (ht : unrecognised text t) :
    parseText caseFold text members t = none := by
  have hexact : ∀ m, text m ≠ t := fun m hm => ht m (by rw [← hm, hc.lower])
  have hnone : members.find? (fun m => text m == lowerText t) = none :=
    List.find?_eq_none.mpr fun m _ => by simpa using (ht m).symm
  rw [parseText_inexact hc caseFold hexact, hnone, ite_self]

theorem parseText_caseVariant (caseFold : Bool) {m : α} (ht : caseVariant text m t) :
    parseText caseFold text members t = if caseFold then some m else none := by
  obtain ⟨hfold, hne⟩ := ht
  have hexact : ∀ n, text n ≠ t := fun n hn => hne (by rw [← hfold, ← hn, hc.lower])
  have hfind : members.find? (fun n => text n == lowerText t) = some m := by
    have hsome : (members.find? fun n => text n == lowerText t).isSome :=
      List.find?_isSome.mpr ⟨m, hc.complete m, by simp [hfold]⟩
    obtain ⟨n, hn⟩ := Option.isSome_iff_exists.mp hsome
    have htext : text n = text m := by simpa [hfold] using List.find?_some hn
    rw [hn, hc.injective htext]
  rw [parseText_inexact hc caseFold hexact, hfind]

end

/-! ### The operations that take a string -/

/-- Settles O26: the tables of R85 by their members, and each setter issues the code of the member it parses. -/
theorem enumSettersIssueTheCode : Obligations.EnumSettersIssueTheCode := by
  refine ⟨fun m => ?_, fun m => ?_, fun m => ?_, fun m => ?_, fun s hs hr => ⟨fun m => ?_, fun m => ?_, fun m => ?_⟩⟩
  · cases m <;> rfl
  · cases m <;> rfl
  · cases m <;> rfl
  · cases m <;> rfl
  · rw [exec, execSetMode, parseMode_text]
    exact setEnum_some hr hs _ _ _
  · rw [exec, execSetTriggerSource, parseTrigger_text]
    exact setEnum_some hr hs _ _ _
  · rw [exec, execSetFunction, parseFunction_text]
    exact setEnum_some hr hs _ _ _

/-- Every row of `setTransient` is the one operation (R144, entry 7). -/
theorem exec_setTransientRow (m : Mode) (t : Text) (a ta b tb : Rat) (style : Text) (s : State) :
    exec (setTransientRow m t a ta b tb style) s = setTransient t a ta b tb style s := by
  cases m <;> rfl

/-- Every row of `getTransient` is the one operation (R144, entry 7). -/
theorem exec_getTransientRow (m : Mode) (t : Text) (s : State) : exec (getTransientRow m t) s = getTransient t s := by
  cases m <;> rfl

theorem setTransient_unknownMode {s : State} (hr : s.Ready) {t : Text} (ht : parseMode s.cfg.caseFold t = none)
    (a ta b tb : Rat) (style : Text) : setTransient t a ta b tb style s = .next (raise .unknownMode s) := by
  simp only [setTransient, gate_ready hr, ht]

theorem getTransient_unknownMode {s : State} (hr : s.Ready) {t : Text} (ht : parseMode s.cfg.caseFold t = none) :
    getTransient t s = .next (raise .unknownMode s) := by
  simp only [getTransient, gate_ready hr, ht]

/-- A mode string acts through the mode it parses to. -/
theorem setTransient_mode_congr {s : State} {t t' : Text}
    (h : parseMode s.cfg.caseFold t = parseMode s.cfg.caseFold t') (a ta b tb : Rat) (style : Text) :
    setTransient t a ta b tb style s = setTransient t' a ta b tb style s := by
  simp only [setTransient, gate, h]

theorem getTransient_mode_congr {s : State} {t t' : Text}
    (h : parseMode s.cfg.caseFold t = parseMode s.cfg.caseFold t') : getTransient t s = getTransient t' s := by
  simp only [getTransient, gate, h]

/-- The scaler hands on the state it was given, with OPR written. -/
theorem withScale_congr {x : Rat} {sc n : Nat} {s : State} {k k' : Nat → State → Out}
    (h : ∀ w, k w { s with opr := BitVec.ofNat 32 w } = k' w { s with opr := BitVec.ofNat 32 w }) :
    withScale x sc n s k = withScale x sc n s k' := by
  simp only [withScale, h]

/-- A style string acts through the style it parses to. -/
theorem setTransient_style_congr {s : State} (hr : s.Ready) {style style' : Text}
    (h : parseStyle s.cfg.caseFold style = parseStyle s.cfg.caseFold style') (t : Text) (a ta b tb : Rat) :
    setTransient t a ta b tb style s = setTransient t a ta b tb style' s := by
  simp only [setTransient, gate_ready hr]
  cases parseMode s.cfg.caseFold t with
  | none => rfl
  | some m =>
    refine withScale_congr fun wa => withScale_congr fun wta => withScale_congr fun wb => withScale_congr fun wtb => ?_
    simp only [h]

theorem setEnum_caseFold {α : Type} {s : State} (hr : s.Ready) (hs : s.Sound) (op : OpName) (code : α → Byte) (e : Err)
    (caseFold : Bool) (m : α) :
    setEnum op ((if caseFold then some m else none).map code) e s =
      if caseFold then .next (s.issued op [code m]) else .next (raise e s) := by
  cases caseFold with
  | true => exact setEnum_some hr hs op (code m) e
  | false => exact setEnum_none hr op e

/-- Settles O28: an unrecognised string parses to no member, whatever CASEFOLD is. -/
theorem unrecognisedStringsSendNothing : Obligations.UnrecognisedStringsSendNothing := by
  intro s t hr
  refine ⟨fun ht => ?_, fun ht => ?_, fun ht => ?_⟩
  · have hnone : parseMode s.cfg.caseFold t = none := parseText_unrecognised modeText_canonical _ ht
    refine ⟨?_, fun m a ta b tb st => ⟨?_, ?_⟩⟩
    · rw [exec, execSetMode, hnone]
      exact setEnum_none hr _ _
    · exact (exec_setTransientRow ..).trans (setTransient_unknownMode hr hnone ..)
    · exact (exec_getTransientRow ..).trans (getTransient_unknownMode hr hnone)
  · have hnone : parseFunction s.cfg.caseFold t = none := parseText_unrecognised functionText_canonical _ ht
    rw [exec, execSetFunction, hnone]
    exact setEnum_none hr _ _
  · have hnone : parseTrigger s.cfg.caseFold t = none := parseText_unrecognised triggerText_canonical _ ht
    rw [exec, execSetTriggerSource, hnone]
    exact setEnum_none hr _ _

/-- Under CASEFOLD a transient row does with a case variant of a mode string what it does with the string, and without
CASEFOLD what it does with any unrecognised one (R86 (c)). -/
theorem transientRows_caseVariant {s : State} (hr : s.Ready) {m : Mode} {t : Text} (ht : caseVariant modeText m t) :
    (∀ a ta b tb st, exec (setTransientRow m t a ta b tb st) s =
      if s.cfg.caseFold then exec (setTransientRow m (modeText m) a ta b tb st) s else .next (raise .unknownMode s)) ∧
    exec (getTransientRow m t) s =
      if s.cfg.caseFold then exec (getTransientRow m (modeText m)) s else .next (raise .unknownMode s) := by
  have hparse : parseMode s.cfg.caseFold t = if s.cfg.caseFold then some m else none :=
    parseText_caseVariant modeText_canonical _ ht
  simp only [exec_setTransientRow, exec_getTransientRow]
  split_ifs at hparse ⊢ with hf
  · have hsame := hparse.trans (parseMode_text s.cfg.caseFold m).symm
    exact ⟨setTransient_mode_congr hsame, getTransient_mode_congr hsame⟩
  · exact ⟨setTransient_unknownMode hr hparse, getTransient_unknownMode hr hparse⟩

/-- Settles O27: a case variant parses to its member under CASEFOLD and to no member without it. -/
theorem caseVariantsGoByCaseFold : Obligations.CaseVariantsGoByCaseFold := by
  intro s t hs hr
  refine ⟨fun m ht => ⟨?_, transientRows_caseVariant hr ht⟩, fun m ht => ?_, fun m ht => ?_,
    fun st m a ta b tb u ht hu => ?_⟩
  · rw [exec, execSetMode, parseMode, parseText_caseVariant modeText_canonical _ ht]
    exact setEnum_caseFold hr hs ..
  · rw [exec, execSetTriggerSource, parseTrigger, parseText_caseVariant triggerText_canonical _ ht]
    exact setEnum_caseFold hr hs ..
  · rw [exec, execSetFunction, parseFunction, parseText_caseVariant functionText_canonical _ ht]
    exact setEnum_caseFold hr hs ..
  · simp only [exec_setTransientRow]
    refine setTransient_style_congr hr ?_ ..
    rw [parseStyle, parseText_caseVariant styleText_canonical _ ht]
    split_ifs with hf
    · exact (parseStyle_text _ st).symm
    · exact (parseText_unrecognised styleText_canonical _ hu).symm

/-! ### The completion of a single-field query -/

/-- With the 26 bytes in, the SFC's own step is the completion (R23, R274, entry 14). -/
theorem sfcStep_completes {s : State} (hp : s.phase = .rx) (hc : s.rxcnt = frameLen) (blocked : Out) :
    sfcStep s blocked = complete s := by
  simp [sfcStep, hp, hc]

theorem step_completes {s : State} (hm : s.SfcMoves) (hp : s.phase = .rx) (hc : s.rxcnt = frameLen) :
    step s = complete { s with turns := s.turns.tail } := by
  obtain ht | ⟨turns, ht⟩ := hm
  · have hs : { s with turns := s.turns.tail } = s := by cases s; cases ht; rfl
    rw [hs, step_nil ht, sfcStep_completes hp hc]
  · rw [step_sfc ht, ht]
    exact sfcStep_completes (s := { s with turns := turns }) hp hc _

/-- A malformed reply ends the operation with its error (R154). -/
theorem complete_malformed {s : State} {e : Err} (hr : s.rawTxn = false)
    (hd : decodeFrame s.cfg.recog s.rxbuf = .error e) : complete s = .next (raise e s) := by
  simp [complete, hr, hd]

/-- A single-field query delivers what its field reads as (R153). -/
theorem complete_field {s : State} {p : ParsedFrame} {r : Result} (hr : s.rawTxn = false)
    (hd : decodeFrame s.cfg.recog s.rxbuf = .ok p) (hdir : s.cur.desc.dir = .query) (hl : s.cur.desc.layout = .single)
    (hf : fieldResult s.cur.desc (memRead p.payload 0 s.cur.desc.width) = some r) :
    complete s = .next (deliver r s) := by
  simp [complete, hr, hd, completeParsed, hdir, hl, completeSingle, hf]

theorem flagOfByte_ofNat {w : Nat} (hw : w < 256) :
    flagOfByte (BitVec.ofNat 8 w) = if w = 0 then some false else if w = 1 then some true else none := by
  have hcode (n : Nat) (hn : n < 256) : BitVec.ofNat 8 w = BitVec.ofNat 8 n ↔ w = n := by
    rw [← BitVec.toNat_inj, BitVec.toNat_ofNat, BitVec.toNat_ofNat, Nat.mod_eq_of_lt hw, Nat.mod_eq_of_lt hn]
  exact if_congr (hcode 0 (by decide)) rfl (if_congr (hcode 1 (by decide)) rfl rfl)

section
variable {d : Desc} {w : Nat}

theorem fieldResult_number (hk : d.kind = .quantity ∨ d.kind = .integer) :
    fieldResult d w = some (.value (.number ((w : Rat) / (d.scale : Rat)))) := by
  rw [← unscale_eq_div]
  obtain hk | hk := hk
  · rw [fieldResult, hk]
  · rw [fieldResult, hk]

theorem fieldResult_flag (hk : d.kind = .flag) (hw : w < 256) :
    fieldResult d w = some (if w = 0 then .value (.flag false) else if w = 1 then .value (.flag true)
      else .error (.unmappedCode (BitVec.ofNat 8 w))) := by
  rw [fieldResult, hk]
  simp only [flagOfByte_ofNat hw]
  split_ifs <;> rfl

theorem fieldResult_text {e : EnumKind} {t : Text} (hk : d.kind = .enum e)
    (ht : enumTextOfCode e (BitVec.ofNat 8 w) = some t) : fieldResult d w = some (.value (.text t)) := by
  simp only [fieldResult, hk, ht]

theorem fieldResult_unmapped {e : EnumKind} (hk : d.kind = .enum e)
    (ht : enumTextOfCode e (BitVec.ofNat 8 w) = none) :
    fieldResult d w = some (.error (.unmappedCode (BitVec.ofNat 8 w))) := by
  simp only [fieldResult, hk, ht]

end

/-- A byte is the code of no member if it differs from each as a number (R85). -/
theorem memberOfCode_none {α : Type} {code : α → Byte} (members : List α) {w : Nat} (hw : w < 256)
    (h : ∀ m, (code m).toNat ≠ w) : memberOfCode code members (BitVec.ofNat 8 w) = none := by
  refine List.find?_eq_none.mpr fun m _ hm => h m ?_
  rw [eq_of_beq hm, BitVec.toNat_ofNat, Nat.mod_eq_of_lt hw]

theorem modeCode_toNat_lt (m : Mode) : (modeCode m).toNat < 4 := by cases m <;> decide

theorem triggerCode_toNat_lt (m : TriggerSource) : (triggerCode m).toNat < 3 := by cases m <;> decide

theorem functionCode_toNat (m : LoadFunction) : (functionCode m).toNat < 5 ∧ (functionCode m).toNat ≠ 3 := by
  cases m <;> decide

/-- The codes from the last member's on, and the gap at function code 3, have no string (R85). -/
theorem enumTextOfCode_gap {d : Desc} {w : Nat} (hw : w < 256)
    (h : d.kind = .enum .mode ∧ 4 ≤ w ∨ d.kind = .enum .trigger ∧ 3 ≤ w ∨
      d.kind = .enum .function ∧ (w = 3 ∨ 5 ≤ w)) :
    ∃ e, d.kind = .enum e ∧ enumTextOfCode e (BitVec.ofNat 8 w) = none := by
  obtain ⟨hk, hgap⟩ | ⟨hk, hgap⟩ | ⟨hk, hgap⟩ := h <;> refine ⟨_, hk, Option.map_eq_none_iff.mpr ?_⟩
  · exact memberOfCode_none modes hw fun m => by have := modeCode_toNat_lt m; omega
  · exact memberOfCode_none triggers hw fun m => by have := triggerCode_toNat_lt m; omega
  · exact memberOfCode_none functions hw fun m => by have := functionCode_toNat m; omega

/-- Settles O47: the step is the completion, which delivers `fieldResult` of the field, by the descriptor's kind. -/
theorem getCompletionDecodesTheField : Obligations.GetCompletionDecodesTheField := by
  intro s hm hp hc hr hdir hl
  have hstep := step_completes hm hp hc
  refine ⟨fun e hd => hstep.trans (complete_malformed hr hd), fun p hd => ?_⟩
  intro w
  have field {r : Result} (hf : fieldResult s.cur.desc w = some r) :
      step s = .next (deliver r { s with turns := s.turns.tail }) :=
    hstep.trans (complete_field hr hd hdir hl hf)
  refine ⟨fun hk => field (fieldResult_number hk), fun hk hw => field (fieldResult_flag hk hw), fun m hk hw => ?_,
    fun m hk hw => ?_, fun m hk hw => ?_, fun h hw => ?_⟩
  · exact field (fieldResult_text hk (by rw [hw, BitVec.ofNat_toNat, BitVec.setWidth_eq, enumTextOfCode_mode]))
  · exact field (fieldResult_text hk (by rw [hw, BitVec.ofNat_toNat, BitVec.setWidth_eq, enumTextOfCode_trigger]))
  · exact field (fieldResult_text hk (by rw [hw, BitVec.ofNat_toNat, BitVec.setWidth_eq, enumTextOfCode_function]))
  · obtain ⟨e, hk, hnone⟩ := enumTextOfCode_gap hw h
    exact field (fieldResult_unmapped hk hnone)

end Sys2Proof.Machine
end

section
/-! PROOFS of the statements on the codec primitives (40_codec_primitives.md): the integer codec (O6 to O8), the checksum
(O9, O10), the frame codec (O11 to O13) and the status map (O14). Then what rests on them: the quantity setters whose wire
integer does not fit (O24, O25), the set completion (O46), and the primitives used on their own (O38, O40). -/

namespace Sys2Proof.Machine

/-! ### The integer codec -/

/-- An integer too large for its field raises, or is cut to its low bytes (R115). -/
theorem encInt_exceeds (o : Overflow) {v : Int} {n : Nat} (h : (256 ^ n : Nat) ≤ v) :
    encInt o v n = if o = .fault then .error .invalidParameter else .ok (leBytes n v.toNat) := by
  have h0 : ¬ v < 0 := not_lt.mpr (le_trans (Int.natCast_nonneg _) h)
  simp only [encInt, if_neg h0, if_pos h]
  cases o <;> rfl

theorem leBytes_decInt (b : List Byte) : leBytes b.length (decInt b) = b := by
  induction b with
  | nil => rfl
  | cons x xs ih =>
    have hx : x.toNat < 256 := x.isLt
    have hhead : BitVec.ofNat 8 (x.toNat + 256 * decInt xs) = x := by
      apply BitVec.eq_of_toNat_eq
      rw [BitVec.toNat_ofNat]
      omega
    have htail : (x.toNat + 256 * decInt xs) / 256 = decInt xs := by omega
    rw [List.length_cons, decInt, leBytes, hhead, htail, ih]

theorem decInt_replicate_zero (m : Nat) : decInt (List.replicate m 0) = 0 := by
  induction m with
  | zero => rfl
  | succ m ih => rw [List.replicate_succ, decInt, ih]; rfl

/-- Settles O6: `leBytes` and `decInt` undo each other on what fits the width. -/
theorem integerCodecRoundTrip : Obligations.IntegerCodecRoundTrip := by
  refine ⟨fun o n v _ hv => ⟨leBytes n v, encInt_fits o hv, leBytes_length n v, decInt_leBytes hv⟩, ?_, fun b m => ?_⟩
  · rintro o _ b _ rfl
    rw [encInt_fits o (decInt_lt b), leBytes_decInt]
  · rw [decInt_append, decInt_replicate_zero, Nat.mul_zero, Nat.add_zero]

theorem leBytes_getD {n k : Nat} (v : Nat) (hk : k < n) : ((leBytes n v).getD k 0).toNat = v / 256 ^ k % 256 := by
  induction n generalizing v k with
  | zero => omega
  | succ n ih =>
    cases k with
    | zero => simp [leBytes]
    | succ k => rw [leBytes, List.getD_cons_succ, ih (v / 256) (by omega), Nat.div_div_eq_div_mul, pow_succ']

/-- Settles O7: byte `k` of `leBytes`, and the two raises of `ENCINT`. -/
theorem encIntGivesLittleEndianBytes : Obligations.EncIntGivesLittleEndianBytes :=
  ⟨fun n v hv => ⟨leBytes n v, encInt_fits _ hv, leBytes_length n v, fun _ hk => leBytes_getD v hk⟩,
    fun n _ hv => encInt_negative _ n hv, fun _ _ hv => encInt_exceeds .fault hv⟩

/-- Settles O8, by induction on the bytes: behind the first byte every weight is 256 times one of the rest. -/
theorem decIntIsTheLittleEndianSum : Obligations.DecIntIsTheLittleEndianSum := by
  intro b
  induction b with
  | nil => rfl
  | cons x xs ih =>
    rw [List.length_cons, Finset.sum_range_succ', decInt, ih, Finset.mul_sum, Nat.add_comm]
    simp only [List.getD_cons_succ, List.getD_cons_zero, pow_zero, mul_one, pow_succ']
    congr 1
    exact Finset.sum_congr rfl fun _ _ => by ring

/-! ### The checksum -/

/-- `CSUM8` is the sum of the bytes as bytes: the carry out of eight bits is discarded (R111). -/
theorem csum8_eq_sum (b : List Byte) : csum8 b = b.sum := by
  induction b with
  | nil => rfl
  | cons x xs ih =>
    rw [List.sum_cons, ← ih, csum8, csum8, List.map_cons, List.sum_cons, BitVec.ofNat_add, BitVec.ofNat_toNat,
      BitVec.setWidth_eq]

theorem csum8_perm {b b' : List Byte} (h : b.Perm b') : csum8 b = csum8 b' := by
  rw [csum8_eq_sum, csum8_eq_sum, h.sum_eq]

/-- A change of one byte shows in the sum (R112). -/
theorem csum8_set_ne {b : List Byte} {k : Nat} {x : Byte} (hk : k < b.length) (hx : x ≠ b.getD k 0) :
    csum8 (b.set k x) ≠ csum8 b := by
  rw [List.getD_eq_getElem _ _ hk] at hx
  rw [csum8_eq_sum, csum8_eq_sum, List.sum_set', dif_pos hk]
  intro h
  exact hx (neg_add_eq_zero.mp (add_eq_left.mp h)).symm

/-- `CSUMOK` compares the sum of bytes 0..24 with byte 25 (R112). -/
theorem csumOk_iff (f : List Byte) : csumOk f = true ↔ csum8 (f.take csumOff) = f.getD csumOff 0 := beq_iff_eq

/-- A change of byte 25 misses the sum it is compared with. -/
theorem csumOk_set_checksum {f : List Byte} {x : Byte} (hl : csumOff < f.length) (hok : csumOk f = true)
    (hx : x ≠ f.getD csumOff 0) : csumOk (f.set csumOff x) = false := by
  have hbyte : (f.set csumOff x).getD csumOff 0 = x := by simp [List.getD, hl]
  rw [csumOk_iff] at hok
  rw [← Bool.not_eq_true, csumOk_iff, List.take_set_of_le le_rfl, hok, hbyte]
  exact hx.symm

/-- A change before byte 25 moves the sum and leaves the byte it is compared with. -/
theorem csumOk_set_body {f : List Byte} {k : Nat} {x : Byte} (hk : k < csumOff) (hl : k < f.length)
    (hok : csumOk f = true) (hx : x ≠ f.getD k 0) : csumOk (f.set k x) = false := by
  have hbyte : (f.take csumOff).getD k 0 = f.getD k 0 := by simp [List.getD, List.getElem?_take_of_lt hk]
  have hsame : (f.set k x).getD csumOff 0 = f.getD csumOff 0 := by simp [List.getD, List.getElem?_set_ne hk.ne]
  rw [csumOk_iff] at hok
  rw [← Bool.not_eq_true, csumOk_iff, List.take_set, hsame, ← hok]
  exact csum8_set_ne (by rw [List.length_take]; omega) (hbyte ▸ hx)

/-- Settles O9: the definition read as a number, and as the sum of bytes. -/
theorem checksumIsAnAccumulator : Obligations.ChecksumIsAnAccumulator := fun b =>
  ⟨BitVec.toNat_ofNat .., (csum8_eq_sum b).trans List.sum_eq_foldl⟩

/-- Settles O10: the changed byte is the checksum byte or stands before it; a reordering moves neither side of the
comparison. -/
theorem checksumFindsSingleByteChanges : Obligations.ChecksumFindsSingleByteChanges := by
  refine ⟨fun f k x hl hok hk hx => ?_, fun f g _ _ hp hlast => ?_⟩
  · obtain hk' | rfl := Nat.lt_or_eq_of_le (show k ≤ csumOff from Nat.le_of_lt_succ hk)
    · exact csumOk_set_body hk' (hl ▸ hk) hok hx
    · exact csumOk_set_checksum (hl ▸ hk) hok hx
  · have hsum : csum8 (f.take csumOff) = csum8 (g.take csumOff) := csum8_perm hp
    have hbyte : f.getD csumOff 0 = g.getD csumOff 0 := hlast
    rw [Bool.eq_iff_iff, csumOk_iff, csumOk_iff, hsum, hbyte]

/-! ### The frame encoder -/

theorem encodeFrame_outside {recog : List Byte} {opc addr : Byte} (p : List Byte)
    (h : addr = addrForbidden ∨ opc ∉ recog) : encodeFrame recog opc addr p = .outside :=
  if_pos (by simpa using h)

theorem encodeFrame_tooLong {recog : List Byte} {opc addr : Byte} {p : List Byte} (ha : addr ≠ addrForbidden)
    (ho : opc ∈ recog) (hp : payloadCap < p.length) : encodeFrame recog opc addr p = .error .invalidPayload := by
  simp [encodeFrame, ha, ho, hp]

/-- Payload byte `k` of a frame is byte `k` of its data, filled with zeros (R57, R118). -/
theorem frameBytes_payload (opc addr : Byte) {p : List Byte} (hp : p.length ≤ payloadCap) {k : Nat}
    (hk : k < payloadCap) :
    (frameBytes opc addr p).getD (payloadOff + k) 0 = (p ++ List.replicate (payloadCap - p.length) 0).getD k 0 := by
  rw [← payloadOf_frameBytes opc addr hp, payloadOf, List.getD, List.getD, List.getElem?_take_of_lt hk,
    List.getElem?_drop]

/-- Settles O11: `ENCODE` by its preconditions, and the bytes of `frameBytes` by the frame map. -/
theorem encodeFrameFillsTheFrameMap : Obligations.EncodeFrameFillsTheFrameMap := by
  refine fun recog opc addr p => ⟨encodeFrame_outside p, fun ha ho hp => encodeFrame_tooLong ha ho hp,
    fun ha ho hp => ⟨_, encodeFrame_frame ha ho hp, frameBytes_length _ _ hp, frameBytes_header .., frameBytes_address ..,
      frameBytes_opcode .., fun k hk => ?_, fun k hk hk' => ?_, ?_⟩⟩
  · exact (frameBytes_payload opc addr hp (hk.trans_le hp)).trans (List.getD_append _ _ _ _ hk)
  · refine (frameBytes_payload opc addr hp hk').trans ?_
    rw [List.getD_append_right _ _ _ _ hk, List.getD_eq_getElem?_getD, List.getElem?_getD_replicate_default_eq]
  · exact ((csumOk_iff _).mp (csumOk_frameBytes opc addr hp)).symm

/-! ### The frame decoder -/

/-- `HDRDET` looks at byte 0 alone; an absent byte is no header (R113). -/
theorem hdrDet_eq (f : List Byte) : hdrDet f = (f.getD 0 0 == header) := by
  cases f <;> rfl

/-- The five checks in their order, each on the bytes it looks at (R120). -/
theorem firstFailure_frameChecks (recog raw : List Byte) : firstFailure (frameChecks recog raw) =
    if raw.length ≠ 26 then some .length
    else if raw.getD 0 0 ≠ 0xAA then some .header
    else if raw.getD 1 0 = 0xFF then some .address
    else if raw.getD 2 0 ∉ recog then some .opcode
    else if csum8 (raw.take 25) ≠ raw.getD 25 0 then some .checksum
    else none := by
  simp only [firstFailure, frameChecks, hdrDet_eq, csumOk, Bool.not_eq_true', beq_eq_false_iff_ne, bne_eq_false_iff_eq,
    List.contains_eq_mem, decide_eq_false_iff_not]
  rfl

/-- Settles O12: each failing check is an error, and where none fails the frame is parsed. -/
theorem decodeReportsTheFirstFailedCheck : Obligations.DecodeReportsTheFirstFailedCheck := by
  intro recog raw
  rw [decodeFrame, firstFailure_frameChecks]
  split_ifs <;> rfl

theorem firstFailure_eq_none_iff {recog raw : List Byte} :
    firstFailure (frameChecks recog raw) = none ↔ wireFrame recog raw := by
  simp [firstFailure_frameChecks, ite_eq_iff, wireFrame, csumOk_iff, frameLen, header, addrForbidden, csumOff]

/-- `DECODE` succeeds exactly on the frames that the SFC accepts, and takes their opcode, first payload byte and payload
(R120, R121). -/
theorem decodeFrame_ok_iff {recog raw : List Byte} {q : ParsedFrame} : decodeFrame recog raw = .ok q ↔
    wireFrame recog raw ∧ { echo := raw.getD 2 0, status := raw.getD 3 0, payload := payloadOf raw } = q := by
  rw [← firstFailure_eq_none_iff, decodeFrame]
  cases firstFailure (frameChecks recog raw) with
  | some c => simp
  | none => simp [payloadOf]

/-! ### The round trip of the frame codec -/

/-- What `ENCODE` builds inside its preconditions is a frame the SFC accepts (R57, R123). -/
theorem wireFrame_frameBytes {recog : List Byte} {opc addr : Byte} {p : List Byte} (ha : addr ≠ addrForbidden)
    (ho : opc ∈ recog) (hp : p.length ≤ payloadCap) : wireFrame recog (frameBytes opc addr p) :=
  ⟨frameBytes_length _ _ hp, frameBytes_header .., by rwa [frameBytes_address], by rwa [frameBytes_opcode],
    csumOk_frameBytes _ _ hp⟩

theorem payloadOf_length {f : List Byte} (h : f.length = frameLen) : (payloadOf f).length = payloadCap := by
  simp [payloadOf, h, frameLen, payloadOff, payloadCap]

/-- A whole frame is its three head bytes, its payload and its checksum byte (R57). -/
theorem frame_parts {f : List Byte} (h : f.length = frameLen) :
    f.take csumOff = [f.getD 0 0, f.getD 1 0, f.getD 2 0] ++ payloadOf f ∧
      f = f.take csumOff ++ [f.getD csumOff 0] := by
  have hlast : csumOff < f.length := by rw [h]; decide
  constructor
  · match f, h with
    | _ :: _ :: _ :: _, _ => rfl
  · rw [List.getD_eq_getElem _ _ hlast, ← List.take_succ_eq_append_getElem hlast]
    exact (List.take_of_length_le h.le).symm

/-- `ENCODE` rebuilds an accepted frame from its opcode, address and payload (R123). -/
theorem frameBytes_of_wireFrame {recog raw : List Byte} (h : wireFrame recog raw) :
    frameBytes (raw.getD 2 0) (raw.getD 1 0) (payloadOf raw) = raw := by
  obtain ⟨hl, hh, _, _, hk⟩ := h
  obtain ⟨hhead, hwhole⟩ := frame_parts hl
  rw [frameBytes, payloadOf_length hl, Nat.sub_self, List.replicate_zero, List.append_nil, ← hh, ← hhead,
    (csumOk_iff raw).mp hk, ← hwhole]

/-- Settles O13: what `ENCODE` builds is accepted, and what is accepted `ENCODE` builds. -/
theorem frameCodecRoundTrip : Obligations.FrameCodecRoundTrip := by
  refine ⟨fun recog opc addr p ho ha hp => ?_, fun recog raw q hq => ?_⟩
  · exact ⟨_, _, encodeFrame_frame ha ho hp, decodeFrame_ok_iff.mpr ⟨wireFrame_frameBytes ha ho hp, rfl⟩,
      frameBytes_opcode opc addr p, payloadOf_frameBytes opc addr hp⟩
  · obtain ⟨hw, _⟩ := decodeFrame_ok_iff.mp hq
    have hframe := frameBytes_of_wireFrame hw
    obtain ⟨hl, _, ha, ho, _⟩ := hw
    exact (encodeFrame_frame ha ho (payloadOf_length hl).le).trans (congrArg _ hframe)

/-! ### The status map -/

theorem statusMap_unknown {b : Byte} (h : b ∉ ([0x80, 0x90, 0xA0, 0xB0, 0xC0] : List Byte)) :
    statusMap b = .unknownStatus b := by
  simp only [List.mem_cons, List.not_mem_nil, or_false, not_or] at h
  obtain ⟨h80, h90, hA0, hB0, hC0⟩ := h
  rw [statusMap, if_neg h80, if_neg h90, if_neg hA0, if_neg hB0, if_neg hC0]

/-- Settles O14: the five named bytes by evaluation, every other byte by the last branch. -/
theorem statusMapNamesFiveBytes : Obligations.StatusMapNamesFiveBytes :=
  ⟨rfl, rfl, rfl, rfl, rfl, fun _ => statusMap_unknown⟩

/-! ### Quantity setters whose wire integer does not fit -/

/-- Each row of `quantitySetters` is `setQuantity` at its operation, scale and width (R173 to R191). -/
theorem exec_quantitySetter (x : Rat) (s : State) : ∀ p ∈ quantitySetters s.cfg x,
    exec p.1 s = setQuantity p.2.1 x p.2.2.1 p.2.2.2 s ∧ p.2.2.2 ≤ payloadCap := by
  intro p hp
  simp only [quantitySetters, List.mem_cons, List.not_mem_nil, or_false] at hp
  obtain rfl | rfl | rfl | rfl | rfl | rfl | rfl | rfl | rfl := hp
  all_goals exact ⟨rfl, by simp [payloadCap]⟩

theorem scaleValue_faults {o : Overflow} {x : Rat} {s n : Nat} (ho : o = .fault)
    (hw : (256 ^ n : Nat) ≤ roundRat (x * s)) : scaleValue o x s n = .error .invalidParameter := by
  simp only [scaleValue, if_pos hw, ho, ite_self]

theorem scaleValue_truncates {o : Overflow} {x : Rat} {s n : Nat} (h0 : 0 ≤ x) (ho : o = .truncate)
    (hw : (256 ^ n : Nat) ≤ roundRat (x * s)) :
    scaleValue o x s n = .ok ((roundRat (x * s)).toNat % 256 ^ n) := by
  simp only [scaleValue, if_neg (not_lt.mpr h0), if_pos hw, ho]

/-- The low bytes of an integer are those of what is left of it modulo their range. -/
theorem leBytes_mod (n v : Nat) : leBytes n (v % 256 ^ n) = leBytes n v := by
  induction n generalizing v with
  | zero => rfl
  | succ n ih =>
    have hhead : BitVec.ofNat 8 (v % 256 ^ (n + 1)) = BitVec.ofNat 8 v := by
      apply BitVec.eq_of_toNat_eq
      rw [BitVec.toNat_ofNat, BitVec.toNat_ofNat]
      exact Nat.mod_mod_of_dvd _ (dvd_pow_self 256 n.succ_ne_zero)
    have htail : v % 256 ^ (n + 1) / 256 = v / 256 % 256 ^ n := by
      rw [pow_succ', Nat.mod_mul_right_div_self]
    rw [leBytes, leBytes, hhead, htail, ih]

/-- Settles O24: past the gate the scaler raises, on the sign of the operand or on the width of its wire integer. -/
theorem quantitySettersRejectBadOperands : Obligations.QuantitySettersRejectBadOperands := by
  intro x s hr p hp hbad
  rw [(exec_quantitySetter x s p hp).1]
  obtain hneg | ⟨ho, hw⟩ := hbad
  · exact setQuantity_negative hr _ _ _ hneg
  · simp only [setQuantity, gate_ready hr, withScale, scaleValue_faults ho hw]
    rfl

/-- Settles O25: the scaler hands on the low bytes' value, whose bytes are the low bytes. -/
theorem truncatingSettersSendTheLowBytes : Obligations.TruncatingSettersSendTheLowBytes := by
  intro x s hs hr h0 ho p hp hw w
  obtain ⟨hexec, hn⟩ := exec_quantitySetter x s p hp
  rw [hexec]
  simp only [setQuantity, gate_ready hr, withScale, scaleValue_truncates h0 ho hw, leBytes_mod]
  exact issue_sound (s := { s with opr := BitVec.ofNat 32 (w % 256 ^ p.2.2.2) }) hs _ ((leBytes_length _ _).trans_le hn)

/-! ### The set completion -/

/-- A set delivers the mapped status of its reply (R121, R152). -/
theorem complete_set {s : State} {p : ParsedFrame} (hr : s.rawTxn = false)
    (hd : decodeFrame s.cfg.recog s.rxbuf = .ok p) (hdir : s.cur.desc.dir = .set) :
    complete s = .next (deliver (.outcome (statusMap p.status)) s) := by
  simp [complete, hr, hd, completeParsed, hdir]

/-- Settles O46: the step is the completion, on a parsed reply and on a malformed one. -/
theorem setCompletionMapsTheStatus : Obligations.SetCompletionMapsTheStatus := by
  intro s hm hp hc hr hdir
  have hstep := step_completes hm hp hc
  refine ⟨fun p hd => ?_, fun e hd => hstep.trans (complete_malformed hr hd)⟩
  obtain ⟨_, rfl⟩ := decodeFrame_ok_iff.mp hd
  exact hstep.trans (complete_set (s := { s with turns := s.turns.tail }) hr hd hdir)

/-! ### The primitives used on their own -/

section
variable {s : State}

theorem execEncInt_ok {v : Int} {w : IntWidth} {b : List Byte} (h : encInt s.cfg.overflow v (widthBytes w) = .ok b) :
    execEncInt v w s = .next { s with ret := .bytes b } := by
  simp only [execEncInt, h, answer]

theorem execEncInt_error {v : Int} {w : IntWidth} {e : Err} (h : encInt s.cfg.overflow v (widthBytes w) = .error e) :
    execEncInt v w s = .next { s with ret := .error e } := by
  simp only [execEncInt, h, answer]

/-- ENCINT of a value too large for its width answers what OVERFLOW says (R115). -/
theorem execEncInt_exceeds {v : Nat} {w : IntWidth} (h : 256 ^ widthBytes w ≤ v) : execEncInt v w s =
    if s.cfg.overflow = .fault then .next { s with ret := .error .invalidParameter }
    else .next { s with ret := .bytes (leBytes (widthBytes w) v) } := by
  have henc := encInt_exceeds s.cfg.overflow (Int.ofNat_le.mpr h)
  split_ifs at henc ⊢ with ho
  · exact execEncInt_error henc
  · exact execEncInt_ok henc

theorem execEncodeFrame_frame {opc addr : Byte} {p : List Byte} (ho : opc ∈ s.cfg.recog) (ha : addr ≠ addrForbidden)
    (hp : p.length ≤ payloadCap) :
    execEncodeFrame opc addr p s = .next { s with ret := .bytes (frameBytes opc addr p) } := by
  simp only [execEncodeFrame, encodeFrame_frame ha ho hp, answer]

theorem execEncodeFrame_tooLong {opc addr : Byte} {p : List Byte} (ho : opc ∈ s.cfg.recog) (ha : addr ≠ addrForbidden)
    (hp : payloadCap < p.length) : execEncodeFrame opc addr p s = .next { s with ret := .error .invalidPayload } := by
  simp only [execEncodeFrame, encodeFrame_tooLong ha ho hp, answer]

theorem execEncodeFrame_outside {opc addr : Byte} (p : List Byte) (h : addr = addrForbidden ∨ opc ∉ s.cfg.recog) :
    execEncodeFrame opc addr p s = .refused .encodePrecondition := by
  simp only [execEncodeFrame, encodeFrame_outside p h]

theorem execDecodeFrame_ok {raw : List Byte} {p : ParsedFrame} (h : decodeFrame s.cfg.recog raw = .ok p) :
    execDecodeFrame raw s = .next { s with ret := .parsed p } := by
  simp only [execDecodeFrame, h, answer]

theorem execDecodeFrame_error {raw : List Byte} {e : Err} (h : decodeFrame s.cfg.recog raw = .error e) :
    execDecodeFrame raw s = .next { s with ret := .error e } := by
  simp only [execDecodeFrame, h, answer]

theorem execBuild_outside {d : Desc} (data : List Byte) (h : s.addr = addrForbidden ∨ d.opcode ∉ s.cfg.recog) :
    execBuild d data s = .refused .encodePrecondition := by
  simp only [execBuild, build, encodeFrame_outside data h]

theorem execBuild_tooLong {d : Desc} {data : List Byte} (ha : s.addr ≠ addrForbidden) (ho : d.opcode ∈ s.cfg.recog)
    (hd : payloadCap < data.length) : execBuild d data s = .next { s with ret := .error .invalidPayload } := by
  simp only [execBuild, build, encodeFrame_tooLong ha ho hd, answer]

end

/-- Settles O38: each primitive answers its function's value, and the three that can raise do so by their cases. -/
theorem codecPrimitivesAnswer : Obligations.CodecPrimitivesAnswer := by
  refine fun s => ⟨fun _ => rfl, fun _ => rfl, fun f => ?_, fun w n hn => ?_, fun _ => rfl,
    fun _ _ _ ho ha hp => execEncodeFrame_frame ho ha hp, fun _ _ _ ho ha hp => execEncodeFrame_tooLong ho ha hp,
    fun _ _ h => execDecodeFrame_ok h, fun _ _ h => execDecodeFrame_error h, fun _ => rfl⟩
  · rw [exec, execHdrDet, hdrDet_eq]
    rfl
  · obtain rfl : n = widthBytes w := hn
    exact ⟨fun v hv => execEncInt_ok (encInt_fits _ hv), fun v hv => execEncInt_error (encInt_negative _ _ hv),
      fun v hv => execEncInt_exceeds hv⟩

/-- Settles O40: ENCODE and BUILD are refused by the preconditions of `encodeFrame`, and BUILD answers its one error. -/
theorem operandsOutsideTheRulesAreRefused : Obligations.OperandsOutsideTheRulesAreRefused := fun _ =>
  ⟨fun _ _ p h => execEncodeFrame_outside p h, fun _ data h => execBuild_outside data h,
    fun _ _ ha ho hd => execBuild_tooLong ha ho hd⟩

end Sys2Proof.Machine
end

section
/-! PROOFS of the statements on the command table and its dispatch (41_command_table_dispatch.md): `ROUND`, `SCALE` and
`UNSCALE` (O15, O16), the table (O18), and what the operations that issue a request leave (O22, O23, O30 to O32). Then the
completions of the composite queries (O48) and of every operation under the invariant (O60), and the primitives of the
table and the operands (O39). -/

namespace Sys2Proof.Machine

/-! ### Rounding and scaling -/

/-- A rational is its floor and a rest over its denominator, and `ROUND` takes the neighbour the rest is nearer to. -/
theorem roundRat_mul_den (q : Rat) : 2 * |roundRat q * (q.den : Int) - q.num| ≤ q.den := by
  have hdiv : (q.den : Int) * (q.num / (q.den : Int)) + q.num % (q.den : Int) = q.num := Int.mul_ediv_add_emod ..
  have hd : (0 : Int) < q.den := by exact_mod_cast q.den_pos
  have hlow : 0 ≤ q.num % (q.den : Int) := Int.emod_nonneg _ hd.ne'
  have hhigh : q.num % (q.den : Int) < q.den := Int.emod_lt_of_pos _ hd
  have hbelow : q.num / (q.den : Int) * q.den - q.num = -(q.num % (q.den : Int)) := by linarith
  have habove : (q.num / (q.den : Int) + 1) * q.den - q.num = q.den - q.num % (q.den : Int) := by linarith
  simp only [roundRat]
  split_ifs
  · rw [hbelow, abs_neg, abs_of_nonneg hlow]; omega
  · rw [habove, abs_of_nonneg (by omega)]; omega
  · rw [habove, abs_of_nonneg (by omega)]; omega
  · rw [hbelow, abs_neg, abs_of_nonneg hlow]; omega

/-- Settles O15: the distance of `roundRat_mul_den`, divided by the denominator. -/
theorem roundIsNearest : Obligations.RoundIsNearest := by
  refine ⟨roundRat_int, fun q => ?_⟩
  have hd : (0 : Rat) < q.den := by exact_mod_cast q.den_pos
  have hdist : 2 * |(roundRat q : Rat) * q.den - q.num| ≤ q.den := by exact_mod_cast roundRat_mul_den q
  have hq : (roundRat q : Rat) * q.den - q.num = ((roundRat q : Rat) - q) * q.den := by
    rw [sub_mul, Rat.mul_den_eq_num]
  rw [hq, abs_mul, abs_of_pos hd] at hdist
  refine le_of_mul_le_mul_right ?_ hd
  linarith

/-- Settles O16: `UNSCALE` gives `x` back exactly where rounding moved nothing, which is where `x * s` is an integer. -/
theorem unscaleUndoesScale : Obligations.UnscaleUndoesScale := by
  refine ⟨fun w s _ => unscale_eq_div w s, fun x s n w hs h => ?_⟩
  have hquot : unscale w s = x ↔ x * (s : Rat) = w := by
    rw [unscale_eq_div, div_eq_iff (by exact_mod_cast hs.ne'), eq_comm]
  rw [hquot]
  refine ⟨fun hw => ⟨w, by exact_mod_cast hw⟩, fun ⟨k, hk⟩ => ?_⟩
  obtain ⟨_, h1⟩ | ⟨_, _, _, h1⟩ | ⟨_, _, ho, _⟩ | ⟨h0, _, h1⟩ := scaleValue_cases .fault x s n
  · cases h1.symm.trans h
  · cases h1.symm.trans h
  · cases ho
  · have hk0 : 0 ≤ k := by exact_mod_cast hk ▸ mul_nonneg h0 (Nat.cast_nonneg s)
    have hw : k.toNat = w := by rw [← roundRat_int k, ← hk]; exact Except.ok.inj (h1.symm.trans h)
    rw [hk, ← hw]
    exact_mod_cast (Int.toNat_of_nonneg hk0).symm

theorem badQuantity_iff {o : Overflow} {x : Rat} {s n : Nat} : badQuantity o x s n = true ↔
    x < 0 ∨ o = .fault ∧ (256 ^ n : Nat) ≤ roundRat (x * s) := by
  simp only [badQuantity, Bool.or_eq_true, Bool.and_eq_true, decide_eq_true_eq]

/-- A non-negative operand is good where it fits, and under OVERFLOW = truncate always (R115). -/
theorem badQuantity_eq_false {o : Overflow} {x : Rat} {s n : Nat} (h0 : 0 ≤ x)
    (h : o = .truncate ∨ roundRat (x * s) < (256 ^ n : Nat)) : badQuantity o x s n = false := by
  rw [← Bool.not_eq_true, badQuantity_iff]
  rintro (hneg | ⟨ho, hw⟩)
  · exact absurd hneg (not_lt.mpr h0)
  · obtain ht | hlt := h
    · cases ho.symm.trans ht
    · exact absurd hw (not_le.mpr hlt)

/-- The wire integer of an operand in a field of `n` bytes: its low bytes, which are all of it where it fits (R115,
R146). -/
def wireOf (x : Rat) (s n : Nat) : Nat := (roundRat (x * s)).toNat % 256 ^ n

theorem wireOf_lt (x : Rat) (s n : Nat) : wireOf x s n < 256 ^ n := Nat.mod_lt _ (by positivity)

/-- `SCALE` raises on the operands that `badQuantity` names, and gives the wire integer of every other. -/
theorem scaleValue_eq (o : Overflow) (x : Rat) (s n : Nat) :
    scaleValue o x s n = if badQuantity o x s n then .error .invalidParameter else .ok (wireOf x s n) := by
  split_ifs with hbad
  · obtain hneg | ⟨ho, hw⟩ := badQuantity_iff.mp hbad
    · exact scaleValue_negative s n hneg
    · exact scaleValue_faults ho hw
  · rw [badQuantity_iff, not_or, not_and, not_lt, not_le] at hbad
    obtain ⟨h0, hfits⟩ := hbad
    obtain hw | hw := le_or_gt ((256 ^ n : Nat) : Int) (roundRat (x * s))
    · cases o with
      | fault => exact absurd hw (not_le.mpr (hfits rfl))
      | truncate => exact scaleValue_truncates h0 rfl hw
    · have hok : scaleValue o x s n = .ok (roundRat (x * s)).toNat := scaleValue_fits h0 hw
      rw [wireOf, Nat.mod_eq_of_lt (scaleValue_lt hok), hok]

/-- The scaler inside an operation ends it on a bad operand, and else goes on with the wire integer, which OPR holds. -/
theorem withScale_eq (x : Rat) (sc n : Nat) (s : State) (k : Nat → State → Out) : withScale x sc n s k =
    if badQuantity s.cfg.overflow x sc n then .next (raise .invalidParameter s)
    else k (wireOf x sc n) { s with opr := BitVec.ofNat 32 (wireOf x sc n) } := by
  rw [withScale, scaleValue_eq]
  split_ifs <;> rfl

/-! ### The table -/

/-- Settles O18: row by row of R142, the transient rows by mode (R144), and the opcodes of R88. -/
theorem lookupGivesTheTable : Obligations.LookupGivesTheTable := by
  refine ⟨fun c op => ?_, rfl, fun op => ?_⟩
  · cases op with
    | setTransient m => cases m <;> rfl
    | getTransient m => cases m <;> rfl
    | _ => rfl
  · cases op with
    | setTransient m => cases m <;> rfl
    | getTransient m => cases m <;> rfl
    | _ => rfl

/-- A single-field query has a kind that gives a result (R142, R153). -/
theorem lookup_single_query {c : Config} {op : OpName} (hd : (lookup c op).dir = .query)
    (hl : (lookup c op).layout = .single) : (lookup c op).kind ≠ .none ∧ (lookup c op).kind ≠ .composite := by
  cases op with
  | triggerLoad => cases hd
  | setTransient m => cases hd
  | getTransient m => cases hl
  | getInputValues => cases hl
  | getProductInformation => cases hl
  | _ => exact ⟨nofun, nofun⟩

/-! ### Operations that issue a request -/

/-- Each row of `emptyRequests` is `issueEmpty` at its operation (R174 to R214, R252, R257). -/
theorem exec_emptyRequest (s : State) : ∀ p ∈ emptyRequests, exec p.1 s = issueEmpty p.2 s := by
  intro p hp
  simp only [emptyRequests, List.mem_cons, List.not_mem_nil, or_false] at hp
  obtain rfl | rfl | rfl | rfl | rfl | rfl | rfl | rfl | rfl | rfl | rfl | rfl | rfl | rfl | rfl | rfl := hp
  all_goals rfl

/-- Settles O22: each row is `issueEmpty`, which issues in an open and idle session. -/
theorem emptyRequestsIssue : Obligations.EmptyRequestsIssue := by
  intro s hs hr p hp
  rw [exec_emptyRequest s p hp, issueEmpty_ready hr hs]

/-- Settles O23: each row is `setQuantity`, whose operand fits. -/
theorem quantitySettersIssueTheScaledInteger : Obligations.QuantitySettersIssueTheScaledInteger := by
  intro x s hs hr h0 p hp hw
  obtain ⟨hexec, hn⟩ := exec_quantitySetter x s p hp
  exact hexec.trans (setQuantity_fits hr hs _ hn h0 hw)

/-- Settles O32: the mode's query, issued from the state with TP_MODE written. -/
theorem getTransientIssuesTheQuery : Obligations.GetTransientIssuesTheQuery := by
  intro s m hs hr
  simp only [exec_getTransientRow, getTransient, gate_ready hr, parseMode_text]
  exact issue_sound (s := { s with tpMode := tpModeCode m }) hs _ (Nat.zero_le _)

/-- The state `setTransient` issues from: OPR holds the last operand converted, and the profile is staged (R235). -/
def State.staged (s : State) (m : Mode) (wa wta wb wtb : Nat) (st : Style) : State :=
  { s with
    opr := BitVec.ofNat 32 wtb
    tpMode := tpModeCode m
    tpA := BitVec.ofNat 32 wa
    tpTA := BitVec.ofNat 16 wta
    tpB := BitVec.ofNat 32 wb
    tpTB := BitVec.ofNat 16 wtb
    tpStyle := styleCode st }

/-- With four good operands `setTransient` stages their wire integers and issues their profile (R235). -/
theorem setTransient_good {s : State} (hr : s.Ready) (hs : s.Sound) (m : Mode) (st : Style) {a ta b tb : Rat}
    (ha : badQuantity s.cfg.overflow a (setPointScale s.cfg m) 4 = false)
    (hta : badQuantity s.cfg.overflow ta scaleT 2 = false)
    (hb : badQuantity s.cfg.overflow b (setPointScale s.cfg m) 4 = false)
    (htb : badQuantity s.cfg.overflow tb scaleT 2 = false) :
    let wa := wireOf a (setPointScale s.cfg m) 4
    let wta := wireOf ta scaleT 2
    let wb := wireOf b (setPointScale s.cfg m) 4
    let wtb := wireOf tb scaleT 2
    setTransient (modeText m) a ta b tb (styleText st) s =
      .next ((s.staged m wa wta wb wtb st).issued (.setTransient m)
        (tpPack s.cfg.tp wa wta wb wtb (styleCode st).toNat)) := by
  intro wa wta wb wtb
  have hdata : tpEncode (s.staged m wa wta wb wtb st) = tpPack s.cfg.tp wa wta wb wtb (styleCode st).toNat :=
    tpEncode_staged (u := { s with opr := BitVec.ofNat 32 wtb }) rfl _ _ (wireOf_lt ..) (wireOf_lt ..) (wireOf_lt ..)
      (wireOf_lt ..)
  simp only [setTransient, gate_ready hr, parseMode_text, withScale_eq, ha, hta, hb, htb, Bool.false_eq_true, if_false,
    parseStyle_text]
  rw [← hdata]
  exact issue_sound (s := s.staged m wa wta wb wtb st) hs _ ((tpPack_length ..).trans_le hs.1.tpInside)

/-- Settles O30: operands that fit, or are cut under OVERFLOW = truncate, are good. -/
theorem setTransientIssuesTheProfile : Obligations.SetTransientIssuesTheProfile := by
  intro s m st a ta b tb hs hr h0a h0ta h0b h0tb sp h
  have ha := badQuantity_eq_false (n := 4) h0a (h.imp_right fun ⟨ha, _⟩ => ha)
  have hta := badQuantity_eq_false (s := scaleT) (n := 2) h0ta (h.imp_right fun ⟨_, hta, _⟩ => hta)
  have hb := badQuantity_eq_false (n := 4) h0b (h.imp_right fun ⟨_, _, hb, _⟩ => hb)
  have htb := badQuantity_eq_false (s := scaleT) (n := 2) h0tb (h.imp_right fun ⟨_, _, _, htb⟩ => htb)
  exact (exec_setTransientRow ..).trans (setTransient_good hr hs m st ha hta hb htb)

/-- Settles O31: the scaler ends the operation at the first bad operand, OPR holding the operand before it; after four
good ones the style string is looked up. -/
theorem setTransientRejectsBadArguments : Obligations.SetTransientRejectsBadArguments := by
  intro s m a ta b tb st hr sp low ended out
  have hout : out = setTransient (modeText m) a ta b tb st s := exec_setTransientRow ..
  simp only [setTransient, gate_ready hr, parseMode_text, withScale_eq] at hout
  split_ifs with ha hta hb htb
  · exact hout.trans (if_pos ha)
  · exact hout.trans ((if_neg ha).trans (if_pos hta))
  · exact hout.trans ((if_neg ha).trans ((if_neg hta).trans (if_pos hb)))
  · exact hout.trans ((if_neg ha).trans ((if_neg hta).trans ((if_neg hb).trans (if_pos htb))))
  · intro hst
    have hnone : parseStyle s.cfg.caseFold st = none := parseText_unrecognised styleText_canonical _ hst
    refine hout.trans ((if_neg ha).trans ((if_neg hta).trans ((if_neg hb).trans ((if_neg htb).trans ?_))))
    simp only [hnone]
    rfl

/-! ### Completions -/

/-- A well-formed reply is completed by the direction and the layout of CUR (R154, R158). -/
theorem complete_parsed {s : State} {p : ParsedFrame} (hr : s.rawTxn = false)
    (hd : decodeFrame s.cfg.recog s.rxbuf = .ok p) : complete s = completeParsed p s := by
  simp [complete, hr, hd]

/-- One byte of a payload, read as a field (R9). -/
theorem memRead_one (p : List Byte) (off : Nat) : BitVec.ofNat 8 (memRead p off 1) = p.getD off 0 := by
  rw [memRead, List.getD_eq_getElem?_getD]
  cases h : p.drop off with
  | nil => simp [decInt, List.getElem?_eq_none (List.drop_eq_nil_iff.mp h)]
  | cons b rest =>
    have hb : p[off]? = some b := by rw [← Nat.add_zero off, ← List.getElem?_drop, h]; rfl
    simp [decInt, hb]

/-- A register that is as wide as its field holds the field (R29, R234). -/
theorem toNat_ofNat_memRead (p : List Byte) (off n : Nat) {w : Nat} (hw : 256 ^ n = 2 ^ w) :
    (BitVec.ofNat w (memRead p off n)).toNat = memRead p off n := by
  rw [BitVec.toNat_ofNat, Nat.mod_eq_of_lt (hw ▸ memRead_lt p off n)]

theorem hexDigit_eq_digitChar : ∀ n < 16, hexDigit n = Nat.digitChar n := by decide

/-- The numeral of a byte is its number's in base 16 (R258). -/
theorem hexText_eq_toDigits (b : Byte) : hexText b = Nat.toDigits 16 b.toNat := by
  have hb : b.toNat < 256 := b.isLt
  unfold hexText
  split_ifs with h
  · rw [Nat.toDigits_of_lt_base h, hexDigit_eq_digitChar _ h]
  · have hhigh : b.toNat / 16 < 16 := by omega
    have hlow : b.toNat % 16 < 16 := by omega
    rw [Nat.toDigits_of_base_le (by omega) (by omega), Nat.toDigits_of_lt_base hhigh, hexDigit_eq_digitChar _ hhigh,
      hexDigit_eq_digitChar _ hlow]
    rfl

theorem fwText_eq_toDigits (hi lo : Byte) :
    fwText hi lo = Nat.toDigits 16 hi.toNat ++ '.' :: Nat.toDigits 16 lo.toNat := by
  simp [fwText, hexText_eq_toDigits]

theorem styleTextOfCode_unmapped {b : Byte} (h : 2 < b.toNat) : styleTextOfCode b = none := by
  refine Option.map_eq_none_iff.mpr (List.find?_eq_none.mpr fun m _ hm => ?_)
  have hcode : (styleCode m).toNat ≤ 2 := by cases m <;> decide
  rw [eq_of_beq hm] at hcode
  omega

/-- The registers that TPDEC wrote read as the scaled profile (R237 step 7). -/
theorem transientResult_tpDecode {p : List Byte} {s : State} {st : Style}
    (h : p.getD s.cfg.tp.style 0 = styleCode st) : transientResult (tpDecode p s) =
      .value (.transient
        ((memRead p s.cfg.tp.a 4 : Rat) / (s.cur.desc.scale : Rat)) ((memRead p s.cfg.tp.ta 2 : Rat) / 1000)
        ((memRead p s.cfg.tp.b 4 : Rat) / (s.cur.desc.scale : Rat)) ((memRead p s.cfg.tp.tb 2 : Rat) / 1000)
        (styleText st)) := by
  simp only [transientResult, tpDecode_tpStyle, memRead_one, h, styleTextOfCode_code, unscale_eq_div, tpDecode_tpA,
    tpDecode_tpTA, tpDecode_tpB, tpDecode_tpTB, tpDecode_cur, toNat_ofNat_memRead p _ 4 (w := 32) (by decide),
    toNat_ofNat_memRead p _ 2 (w := 16) (by decide), scaleT, Nat.cast_ofNat]

/-- A style byte that no style has ends the query with UnmappedCode (R237 step 6). -/
theorem transientResult_tpDecode_unmapped {p : List Byte} {s : State} (h : 2 < (p.getD s.cfg.tp.style 0).toNat) :
    transientResult (tpDecode p s) = .error (.unmappedCode (p.getD s.cfg.tp.style 0)) := by
  simp only [transientResult, tpDecode_tpStyle, memRead_one, styleTextOfCode_unmapped h]

/-- Settles O48: the step is the completion, by layout; a malformed reply raises before any register is written. -/
theorem compositeCompletionsReadTheirFields : Obligations.CompositeCompletionsReadTheirFields := by
  intro s hm hp hc hr hdir
  have hstep := step_completes hm hp hc
  refine ⟨fun e hd => hstep.trans (complete_malformed hr hd), fun p hd => ?_⟩
  intro field byte
  have hparsed : step s = completeParsed p { s with turns := s.turns.tail } := hstep.trans (complete_parsed hr hd)
  simp only [completeParsed, hdir] at hparsed
  refine ⟨fun hl => ?_, fun hl => ?_, fun hl => ?_⟩
  · rw [hparsed, hl]
    simp only [inputValues, unscale_eq_div, scaleV, scaleI, scaleP, Nat.cast_ofNat]
    rfl
  · rw [hparsed, hl]
    simp only [productInformation, fwText_eq_toDigits]
    rfl
  · intro a ta b tb style
    let u : State := { s with turns := s.turns.tail }
    refine ⟨transientResult (tpDecode p.payload u), ?_, fun st hst => transientResult_tpDecode (s := u) hst,
      fun hst => transientResult_tpDecode_unmapped (s := u) hst⟩
    rw [hparsed, hl]
    simp only [completeTransient, deliver, tpDecode, memRead_one]
    rfl

/-- Settles O60: of the cases of `complete` the one without a result needs a row that the table does not have. -/
theorem completionsAlwaysDeliver : Obligations.CompletionsAlwaysDeliver := by
  intro s hs hm hp hc
  rw [step_completes hm hp hc]
  obtain ⟨_, h⟩ | ⟨c, _, _, h⟩ | ⟨p, r, _, _, h⟩ | ⟨p, _, _, _, _, h⟩ | ⟨_, hdir, hl, hk, _⟩ :=
    complete_cases { s with turns := s.turns.tail }
  · exact ⟨_, h, rfl, rfl, rfl, rfl⟩
  · exact ⟨_, h, rfl, rfl, rfl, rfl⟩
  · exact ⟨_, h, rfl, rfl, rfl, rfl⟩
  · exact ⟨_, h, rfl, rfl, rfl, rfl⟩
  · have hrow : s.cur.desc = lookup s.cfg s.cur.op := hs.latched
    simp only [hrow] at hdir hl hk
    obtain ⟨hnone, hcomposite⟩ := lookup_single_query hdir hl
    exact absurd hk (not_or.mpr ⟨hnone, hcomposite⟩)

/-! ### The primitives of the table and the operands -/

theorem execScale_ok {s : State} {x : Rat} {k n w : Nat} (h : scaleValue s.cfg.overflow x k n = .ok w) :
    ∃ o, execScale x k n s = .next { s with ret := .nat w, opr := o } ∧ (w < 2 ^ 32 → o = BitVec.ofNat 32 w) :=
  ⟨oprOf w, by simp only [execScale, h, answer], oprOf_small⟩

theorem execScale_error {s : State} {x : Rat} {k n : Nat} {e : Err} (h : scaleValue s.cfg.overflow x k n = .error e) :
    execScale x k n s = .next { s with ret := .error e } := by
  simp only [execScale, h, answer]

/-- TPDEC reads each field that the bytes reach as it stands (R234). -/
theorem execTpDec_fields (p : List Byte) (s : State) : ∃ a ta b tb style, execTpDec p s = .next { s with
      ret := .nothing, tpA := a, tpTA := ta, tpB := b, tpTB := tb, tpStyle := style } ∧
    (s.cfg.tp.a + 4 ≤ p.length → a = BitVec.ofNat 32 (memRead p s.cfg.tp.a 4)) ∧
    (s.cfg.tp.ta + 2 ≤ p.length → ta = BitVec.ofNat 16 (memRead p s.cfg.tp.ta 2)) ∧
    (s.cfg.tp.b + 4 ≤ p.length → b = BitVec.ofNat 32 (memRead p s.cfg.tp.b 4)) ∧
    (s.cfg.tp.tb + 2 ≤ p.length → tb = BitVec.ofNat 16 (memRead p s.cfg.tp.tb 2)) ∧
    (s.cfg.tp.style + 1 ≤ p.length → style = p.getD s.cfg.tp.style 0) :=
  have reaches {off n : Nat} (w : Nat) (h : off + n ≤ p.length) :
      BitVec.ofNat w (memRead (fillAbsent p (tpDataLen s.cfg.tp)) off n) = BitVec.ofNat w (memRead p off n) := by
    rw [memRead_fillAbsent _ h]
  ⟨_, _, _, _, _, rfl, reaches 32, reaches 16, reaches 32, reaches 16,
    fun h => (reaches 8 h).trans (memRead_one p _)⟩

/-- Settles O39: each primitive answers its function's value; SCALE by the cases of `scaleValue`, TPDEC by its
fields. -/
theorem operandPrimitivesAnswer : Obligations.OperandPrimitivesAnswer := by
  refine fun s => ⟨fun _ => rfl, fun w k => ?_, fun hi lo => ?_, rfl, fun x k n h0 => ?_,
    fun _ k n hx => execScale_error (scaleValue_negative k n hx), fun p => execTpDec_fields p s⟩
  · rw [← unscale_eq_div]
    rfl
  · rw [← fwText_eq_toDigits]
    rfl
  · intro w
    have hw : (w : Int) = roundRat (x * k) := Int.toNat_of_nonneg (roundRat_nonneg (by positivity))
    refine ⟨fun hlt => ?_, fun hle ho => ?_, fun hle ho => ?_⟩
    · exact execScale_ok (scaleValue_fits h0 (hw ▸ Int.ofNat_lt.mpr hlt))
    · exact execScale_error (scaleValue_faults ho (hw ▸ Int.ofNat_le.mpr hle))
    · exact execScale_ok (scaleValue_truncates h0 ho (hw ▸ Int.ofNat_le.mpr hle))

end Sys2Proof.Machine
end

section
/-! PROOFS of the statements on the scalar operations (42_scalar_operations.md): what the setters of one flag leave (O21). -/

namespace Sys2Proof.Machine

/-- Settles O21: each setter is `setFlag` at its operation, which issues the flag's byte in an open and idle session. -/
theorem flagSettersIssueOneByte : Obligations.FlagSettersIssueOneByte := by
  intro b s hs hr data
  have issues (op : OpName) : setFlag op b s = .next (s.issued op data) := setFlag_ready hr hs op b
  refine ⟨?_, ?_, ?_⟩
  · rw [exec, execSetRemoteControl, issues]
  · rw [exec, execSetLoadState, issues]
  · rw [exec, execSetLoadOnTimerState, issues]

end Sys2Proof.Machine
end

section
/-! PROOFS of the statements on the transient profile (43_transient_profile.md): the bytes TPENC gives (O19), the round trips
of TPENC and TPDEC (O20), and the law that a profile set and echoed reads back as it was set (O51). -/

namespace Sys2Proof.Machine

/-! ### The bytes of a profile -/

/-- Every offset of the default layout is a numeral, so the five writes evaluate to the fields one behind the other. -/
theorem tpPack_defaultTP (a ta b tb style : Nat) : tpPack defaultTP a ta b tb style =
    leBytes 4 a ++ leBytes 2 ta ++ leBytes 4 b ++ leBytes 2 tb ++ leBytes 1 style := rfl

theorem tpEncode_length (s : State) : (tpEncode s).length = tpDataLen s.cfg.tp := tpPack_length ..

theorem tpEncode_defaultTP {s : State} (h : s.cfg.tp = defaultTP) : tpEncode s =
    leBytes 4 s.tpA.toNat ++ leBytes 2 s.tpTA.toNat ++ leBytes 4 s.tpB.toNat ++ leBytes 2 s.tpTB.toNat ++
      leBytes 1 s.tpStyle.toNat := by
  rw [tpEncode, h, tpPack_defaultTP]

/-- Settles O19: the default layout packs the five fields side by side. -/
theorem profileEncodesToThirteenBytes : Obligations.ProfileEncodesToThirteenBytes := fun s h =>
  ⟨tpEncode_defaultTP h, by rw [tpEncode_length, h]; rfl⟩

/-! ### The round trips of the profile codec -/

/-- `TPDEC` reads back what was packed under a legal layout, whatever bytes follow (R233, R234). -/
theorem tpDecode_tpPack {u : State} (hc : u.cfg.Ok) {a ta b tb style : Nat} (rest : List Byte) (ha : a < 256 ^ 4)
    (hta : ta < 256 ^ 2) (hb : b < 256 ^ 4) (htb : tb < 256 ^ 2) (hst : style < 256 ^ 1) :
    tpDecode (tpPack u.cfg.tp a ta b tb style ++ rest) u = { u with
      tpA := BitVec.ofNat 32 a, tpTA := BitVec.ofNat 16 ta, tpB := BitVec.ofNat 32 b, tpTB := BitVec.ofNat 16 tb
      tpStyle := BitVec.ofNat 8 style } := by
  have hread := memRead_tpPack hc rest ha hta hb htb hst
  simp only [profileFields, List.forall_mem_cons] at hread
  obtain ⟨ra, rta, rb, rtb, rst, -⟩ := hread
  simp only [tpDecode, ra, rta, rb, rtb, rst]

/-- `TPDEC` of what `TPENC` gave restores the five registers (R234). -/
theorem tpDecode_tpEncode {s u : State} (hc : s.cfg.Ok) (hu : u.cfg = s.cfg) (rest : List Byte) :
    tpDecode (tpEncode s ++ rest) u =
      { u with tpA := s.tpA, tpTA := s.tpTA, tpB := s.tpB, tpTB := s.tpTB, tpStyle := s.tpStyle } := by
  rw [tpEncode, ← hu, tpDecode_tpPack (hu ▸ hc) rest s.tpA.isLt s.tpTA.isLt s.tpB.isLt s.tpTB.isLt s.tpStyle.isLt]
  simp only [BitVec.ofNat_toNat, BitVec.setWidth_eq]

/-- `TPDEC` on its own is `tpDecode` where the bytes hold every field (R234, entry 23). -/
theorem execTpDec_whole {p : List Byte} {s : State} (h : tpDataLen s.cfg.tp ≤ p.length) :
    exec (.tpDec p) s = .next (answer .nothing (tpDecode p s)) := by
  rw [exec, execTpDec, fillAbsent_long h]

/-- The bytes of a field are those of the integer it reads as (R9). -/
theorem leBytes_memRead {p : List Byte} {off n : Nat} (h : off + n ≤ p.length) :
    leBytes n (memRead p off n) = (p.drop off).take n := by
  have hn : ((p.drop off).take n).length = n := by rw [List.length_take, List.length_drop]; omega
  have hbytes := leBytes_decInt ((p.drop off).take n)
  rwa [hn] at hbytes

/-- Under the default layout the fields that `TPDEC` read are the bytes 0..12, so `TPENC` gives these back (R234). -/
theorem tpEncode_tpDecode_defaultTP {s : State} {p : List Byte} (h : s.cfg.tp = defaultTP) (hp : 13 ≤ p.length) :
    tpEncode (tpDecode p s) = p.take 13 := by
  have hfields : p.take 13 = (p.drop 0).take 4 ++ (p.drop 4).take 2 ++ (p.drop 6).take 4 ++ (p.drop 10).take 2 ++
      (p.drop 12).take 1 := by
    simp only [List.drop_zero, ← List.take_add]
  have hbytes {off n w : Nat} (hw : 256 ^ n = 2 ^ w) (hoff : off + n ≤ p.length) :
      leBytes n (BitVec.ofNat w (memRead p off n)).toNat = (p.drop off).take n := by
    rw [toNat_ofNat_memRead p off n hw, leBytes_memRead hoff]
  rw [tpEncode_defaultTP (s := tpDecode p s) h, hfields, tpDecode_tpA, tpDecode_tpTA, tpDecode_tpB, tpDecode_tpTB,
    tpDecode_tpStyle, h, hbytes (by decide) ?_, hbytes (by decide) ?_, hbytes (by decide) ?_, hbytes (by decide) ?_,
    hbytes (by decide) ?_]
  · rfl
  all_goals simp only [defaultTP]; omega

/-- Settles O20: the bytes hold every field both times, so TPDEC is `tpDecode`, which `tpEncode` undoes and which undoes
`tpEncode`. -/
theorem profileCodecRoundTrip : Obligations.ProfileCodecRoundTrip := by
  refine ⟨fun s u rest hc hu => ?_, fun s p h hp => ?_⟩
  · have hwhole : tpDataLen u.cfg.tp ≤ (tpEncode s ++ rest).length := by
      rw [List.length_append, tpEncode_length, hu]
      exact Nat.le_add_right _ _
    rw [execTpDec_whole hwhole, tpDecode_tpEncode hc hu rest]
    rfl
  · have hwhole : tpDataLen s.cfg.tp ≤ p.length := by rw [h]; exact hp
    exact ⟨_, execTpDec_whole hwhole, tpEncode_tpDecode_defaultTP (s := s) h hp⟩

/-! ### Set, then get -/

/-- The wire integer of an operand that is whole in wire units and fits gives the operand back (R149). -/
theorem unscale_wireOf {x : Rat} {s n : Nat} (hs : 0 < s) (h0 : 0 ≤ x) (hw : roundRat (x * s) < (256 ^ n : Nat))
    (hk : ∃ k : Int, x * (s : Rat) = k) : unscale (wireOf x s n) s = x := by
  have hok : scaleValue .fault x s n = .ok (wireOf x s n) := by
    rw [scaleValue_eq, badQuantity_eq_false h0 (.inr hw)]
    rfl
  exact (unscaleUndoesScale.2 x s n _ hs hok).mpr hk

/-- A well-formed reply to a transient query is completed from its profile (R237 steps 5 to 7). -/
theorem complete_transient {s : State} {p : ParsedFrame} (hr : s.rawTxn = false)
    (hd : decodeFrame s.cfg.recog s.rxbuf = .ok p) (hdir : s.cur.desc.dir = .query) (hl : s.cur.desc.layout = .tp) :
    complete s = .next (completeTransient p.payload s) := by
  simp only [complete_parsed hr hd, completeParsed, hdir, hl]

/-- The result that a packed profile gives is the profile its wire integers stand for (R237 steps 5 to 7). -/
theorem transientResult_tpPack {u : State} (hc : u.cfg.Ok) {a ta b tb : Nat} (st : Style) (rest : List Byte)
    (ha : a < 256 ^ 4) (hta : ta < 256 ^ 2) (hb : b < 256 ^ 4) (htb : tb < 256 ^ 2) :
    transientResult (tpDecode (tpPack u.cfg.tp a ta b tb (styleCode st).toNat ++ rest) u) =
      .value (.transient (unscale a u.cur.desc.scale) (unscale ta scaleT) (unscale b u.cur.desc.scale)
        (unscale tb scaleT) (styleText st)) := by
  rw [tpDecode_tpPack hc rest ha hta hb htb (styleCode st).isLt]
  simp only [transientResult, BitVec.ofNat_toNat, BitVec.setWidth_eq, styleTextOfCode_code, BitVec.toNat_ofNat,
    Nat.mod_eq_of_lt (b := 2 ^ 32) ha, Nat.mod_eq_of_lt (b := 2 ^ 16) hta, Nat.mod_eq_of_lt (b := 2 ^ 32) hb,
    Nat.mod_eq_of_lt (b := 2 ^ 16) htb]

/-- The data bytes of a request stand behind its three head bytes (R57). -/
theorem State.requestOf_data (s : State) (op : OpName) {data : List Byte} {n : Nat} (h : data.length = n) :
    ((s.requestOf op data).drop 3).take n = data := by
  rw [State.requestOf, frameBytes_cons, List.append_assoc]
  exact List.take_left' h

/-- A transient query whose reply begins with a packed profile completes with the profile its wire integers stand for. -/
theorem step_echoedProfile {u : State} {p : ParsedFrame} {a ta b tb : Nat} {st : Style} (hok : u.cfg.Ok)
    (hm : u.SfcMoves) (hp : u.phase = .rx) (hc : u.rxcnt = frameLen) (hr : u.rawTxn = false)
    (hd : decodeFrame u.cfg.recog u.rxbuf = .ok p) (hdir : u.cur.desc.dir = .query) (hl : u.cur.desc.layout = .tp)
    (ha : a < 256 ^ 4) (hta : ta < 256 ^ 2) (hb : b < 256 ^ 4) (htb : tb < 256 ^ 2)
    (hecho : p.payload.take (tpDataLen u.cfg.tp) = tpPack u.cfg.tp a ta b tb (styleCode st).toNat) :
    ∃ v, step u = .next v ∧ v.res = .value (.transient (unscale a u.cur.desc.scale) (unscale ta scaleT)
      (unscale b u.cur.desc.scale) (unscale tb scaleT) (styleText st)) ∧ v.phase = .idle := by
  refine ⟨_, (step_completes hm hp hc).trans (complete_transient hr hd hdir hl), ?_, rfl⟩
  rw [← List.take_append_drop (tpDataLen u.cfg.tp) p.payload, hecho]
  exact transientResult_tpPack (u := { u with turns := u.turns.tail }) hok st _ ha hta hb htb

/-- Settles O51: the request's data are the packed wire integers, so the reply begins with them, and each gives its operand
back. -/
theorem transientReadsBackWhatWasSet : Obligations.TransientReadsBackWhatWasSet := by
  intro s u m st a ta b tb p hs hr h0a h0ta h0b h0tb sp ha hta hb htb ka kta kb ktb hm hp hc hraw hcfg hcur hd
  have good {x : Rat} {k n : Nat} (h0 : 0 ≤ x) (hx : roundRat (x * k) < (256 ^ n : Nat)) :
      badQuantity s.cfg.overflow x k n = false := badQuantity_eq_false h0 (.inr hx)
  have hset := setTransient_good hr hs m st (good h0a ha) (good (k := scaleT) h0ta hta) (good h0b hb)
    (good (k := scaleT) h0tb htb)
  refine ⟨_, (exec_setTransientRow ..).trans hset, fun hecho => ?_⟩
  have hsent : p.payload.take (tpDataLen u.cfg.tp) = tpPack u.cfg.tp (wireOf a sp 4) (wireOf ta scaleT 2) (wireOf b sp 4)
      (wireOf tb scaleT 2) (styleCode st).toNat := by
    rw [hcfg, hecho]
    exact State.requestOf_data _ _ (tpPack_length ..)
  have hstep := step_echoedProfile (hcfg ▸ hs.1) hm hp hc hraw hd (by rw [hcur]; rfl) (by rw [hcur]; rfl)
    (wireOf_lt ..) (wireOf_lt ..) (wireOf_lt ..) (wireOf_lt ..) hsent
  have hsp : 0 < sp := setPointScale_pos hs.1 m
  have hT : 0 < scaleT := by decide
  have hscale : u.cur.desc.scale = sp := by rw [hcur]; rfl
  rwa [hscale, unscale_wireOf hsp h0a ha ka, unscale_wireOf (n := 2) hT h0ta hta kta, unscale_wireOf hsp h0b hb kb,
    unscale_wireOf (n := 2) hT h0tb htb ktb] at hstep

end Sys2Proof.Machine
end

section
/-! PROOFS of the statements on the transport and the session (45_transport_session.md): the receive step (O43), `close`
(O34), the timeout (O44) and the completion of a bare TRANSACT (O50). -/

namespace Sys2Proof.Machine

/-- Settles O43: the buffer is RXBUF with the one byte at RXCNT written, so a read there gives that byte and a read
elsewhere does not see the write. -/
theorem receiveTakesTheOldestByte : Obligations.ReceiveTakesTheOldestByte := by
  intro s b rest hm hp hc hb hq
  have hlt : s.rxcnt < s.rxbuf.length := hb.symm ▸ hc
  refine ⟨s.rxbuf.set s.rxcnt b, step_receives hm hp hc hq, List.length_set.trans hb, ?_, fun k hk => ?_⟩
  · simp [List.getElem?_set_self hlt]
  · simp [List.getElem?_set_ne hk.symm]

theorem execCloseSession_idle {s : State} (hp : s.phase = .idle) :
    execCloseSession s = .next { s with sess := .closed, res := .done } :=
  if_neg (by simp [hp])

/-- Settles O34: `close` leaves PHASE alone, so its equation for IDLE serves the second `close` too. -/
theorem closeIsIdempotent : Obligations.CloseIsIdempotent := fun s hp =>
  ⟨execCloseSession_idle hp, execCloseSession_idle (s := { s with sess := .closed, res := .done }) hp⟩

/-- With bytes missing the timeout ends the host operation in flight with its error (R275). -/
theorem timeoutEvent_request {s : State} (hp : s.phase = .rx) (hc : s.rxcnt < frameLen) (hr : s.rawTxn = false) :
    timeoutEvent s = raise .transportTimeout s := by
  simp [timeoutEvent, hp, hc, hr]

/-- A TRANSACT used on its own answers with that error besides (entry 10). -/
theorem timeoutEvent_raw {s : State} (hp : s.phase = .rx) (hc : s.rxcnt < frameLen) (hr : s.rawTxn = true) :
    timeoutEvent s = answer (.error .transportTimeout) (raise .transportTimeout s) := by
  simp [timeoutEvent, hp, hc, hr]

/-- With nothing in flight, or nothing missing, the timeout has nothing to end (R300). -/
theorem timeoutEvent_noEffect {s : State} (h : s.phase = .idle ∨ frameLen ≤ s.rxcnt) : timeoutEvent s = s := by
  refine if_neg fun ⟨hp, hc⟩ => ?_
  obtain hi | hw := h
  · simp [hp] at hi
  · omega

/-- Settles O44: the step's equation for a timeout turn, then what the event does in each case. -/
theorem timeoutEndsTheOperation : Obligations.TimeoutEndsTheOperation := by
  intro s rest ht
  have ends {u : State} (he : timeoutEvent { s with turns := rest } = u) : step s = .next u :=
    (step_timeout ht).trans (congrArg _ he)
  exact ⟨fun hp hc hr => ends (timeoutEvent_request hp hc hr), fun hp hc hr => ends (timeoutEvent_raw hp hc hr),
    fun h => ends (timeoutEvent_noEffect h)⟩

/-- A TRANSACT used on its own hands back RXBUF as it stands (R277, entry 10). -/
theorem complete_raw {s : State} (hr : s.rawTxn = true) :
    complete s = .next (answer (.bytes s.rxbuf) { s with phase := .idle }) := if_pos hr

/-- Settles O50: with 26 bytes in the step is the completion, which decodes nothing for a TRANSACT used on its own. -/
theorem bareTransactReturnsTheRawBytes : Obligations.BareTransactReturnsTheRawBytes := fun s hm hp hc hr =>
  (step_completes hm hp hc).trans (complete_raw (s := { s with turns := s.turns.tail }) hr)

end Sys2Proof.Machine
end

section
/-! PROOFS of the statements on the exceptions (60_exceptions.md): what a step that moves RES does to PHASE, and from it that
an error leaves the session as it was (O58). -/

namespace Sys2Proof.Machine

/-- RES moves only where an operation ends (R23, R305). -/
theorem LinkEffect.idle_of_res_ne {s t : State} (h : LinkEffect s t) (hn : t.res ≠ s.res) : t.phase = .idle := by
  cases h with
  | stays h =>
    obtain ⟨_, hres⟩ | hidle := h.ending
    · exact absurd hres hn
    · exact hidle
  | sends h => exact absurd h.res hn
  | supplies _ _ h ht => exact absurd (ht ▸ h.res) hn
  | receives _ _ _ h _ _ ht => exact absurd (ht ▸ h.res) hn

/-- The successes of `open` and `close` leave `done` in RES, so an instruction that leaves an error there has one of the
effects that leave the session alone. -/
theorem ExecEffect.link_of_error {i : Instr} {s t : State} {e : Err} (h : ExecEffect i s t) (he : t.res = .error e) :
    LinkEffect s t := by
  cases h with
  | link h => exact h
  | opens _ _ _ _ _ _ _ ht => subst ht; cases he
  | closes _ _ _ _ ht => subst ht; cases he

/-- A step that leaves an error in RES has one of the effects that leave the session alone. -/
theorem step_link_of_error {s t : State} {e : Err} (h : step s = .next t) (he : t.res = .error e) : LinkEffect s t := by
  obtain hlink | ⟨_, _, _, _, _, hexec⟩ := step_effect h
  · exact hlink
  · exact hexec.link_of_error he

/-- Settles O58: the effect of the step leaves the session alone, and it moves RES, so it ends the operation. -/
theorem errorsKeepTheSession : Obligations.ErrorsKeepTheSession := by
  intro s t e h he hnew
  have hlink : LinkEffect s t := step_link_of_error h he
  have hmoved : t.res ≠ s.res := fun hsame => hnew (hsame.symm.trans he)
  obtain ⟨haddr, hsess⟩ := hlink.session
  exact ⟨hsess, haddr, hlink.idle_of_res_ne hmoved⟩

end Sys2Proof.Machine
end
